-- ==== Sys2Proof/Word.lean ====
section
/-! DEFINITION. The words of the Lozset 7240: octets, two-octet masks, texts, and the numbers of stations and of
general slots. Plain abbreviations only; every byte-order helper stands in Decode.lean. -/

namespace Sys2Proof

/-- One octet of a line, or one character code (00_scope §4 "Numbers", "Character set"). -/
abbrev Byte := BitVec 8

/-- A two-octet mask: a set of event kinds or a set of stations (R196). -/
abbrev Mask := BitVec 16

/-- A sequence of character codes. -/
abbrev Text := List Byte

/-- The index of a station: index `i` is station number `i + 1` (00_scope §4 "Stations"). -/
abbrev StationId := Fin 16

/-- The index of one of the 24 general slots of the transmit queue (R180). -/
abbrev GenId := Fin 24

/-- The index of one of the 48 entries of the template table (R1). -/
abbrev EntryId := Fin 48

/-- The station number, 1 to 16, of a station index. -/
def stationNumber (i : StationId) : Nat := i.val + 1

/-- The space character, 20h. -/
def space : Byte := 0x20

/-- The text of `n` spaces. -/
def spaces (n : Nat) : Text := List.replicate n space

/-- The character code of a printable character. -/
def charCode (c : Char) : Byte := BitVec.ofNat 8 c.toNat

/-- Apply a function to every entry of a vector. -/
def mapVec {α β : Type} {n : Nat} (f : α → β) (v : Vector α n) : Vector β n :=
  ⟨(v.toList.map f).toArray, by simp⟩

end Sys2Proof
end

