-- ==== Sys2Proof/Config.lean ====
section
/-! DEFINITION. What the part fixes (capacities and limits, each with its rule) and the free values: opaque constants
without a body, so that nothing can be proved of the value they take. -/

namespace Sys2Proof.Config

/-- R1: entries of the template table. -/
def tableEntries : Nat := 48
/-- R1: entries of the field-definition pool. -/
def definitionPool : Nat := 2048
/-- R1: characters of the literal pool. -/
def literalPool : Nat := 16384
/-- R31: row records of the shared row pool. -/
def rowPool : Nat := 512
/-- R32: POOL LOW is raised by a take that brings the free count to this value or below from above it. -/
def poolLowMark : Nat := 31
/-- R34: records a station's record queue holds. -/
def recordQueue : Nat := 4
/-- R36: keystrokes a station's type-ahead queue holds. -/
def typeAhead : Nat := 32
/-- R147: entries a dirty list holds. -/
def dirtyList : Nat := 64
/-- R146: octets of paint orders in one block. -/
def blockOctets : Nat := 96
/-- R91: tags a deleted-tag list holds. -/
def deletedTags : Nat := 99
/-- R23: characters of a host note. -/
def noteWidth : Nat := 64
/-- R169, R197: key codes an answer may carry. -/
def answerKeys : Nat := 12
/-- R179: the longest outbound payload. -/
def outboundPayload : Nat := 4096
/-- R97: the accumulator limit L, in units of 10^-4. -/
def accumulatorLimit : Int := 10 ^ 17 - 1

/-- R161: the default speed code, 153,600 bit/s (1 to 3 in ascending order). -/
def defaultSpeed : Nat := 2
/-- R161: the default response window, 2.0 ms, in steps of 0.5 ms. -/
def defaultWindow : Nat := 4
/-- R161: the default miss limit. -/
def defaultMissLimit : Nat := 3
/-- R163: the paint window of an ATTACH STATION that gives none. -/
def defaultPaintWindow : Nat := 2

/-- FREE VALUE (assumption 7). R186 completes a cut frame from the octet it had reached; the model has no step for a
single octet, so how many octets of the `n`th cut frame had been sent is left open; the cut takes it below the frame's
length. -/
opaque octetsSentAtCut : Nat → Nat

/-- FREE VALUE (assumption 8). R40 does not say whether a row entry of COMPOSE with both a repeated tag and a bad value
is refused for the tag or for the value. -/
opaque composeTagBeforeValues : Bool

end Sys2Proof.Config
end

