-- ==== Sys2Proof/Syntax.lean ====
section
/-! DEFINITION. The commands of the block, one constructor of `Instr` for each row of spec/opcode_table.json, and the
decoded records they carry. Values inside a record are held as received (R14, R196) and judged later by their owner. -/

namespace Sys2Proof

/-- The numeric part of a field definition (R6): signed flag, scale and the optional limits, as mantissas at the scale. -/
structure NumericPart where
  signed : Bool
  scale : Nat
  min : Option Int
  max : Option Int
  deriving DecidableEq, Repr

/-- The derived part of a PRODUCT or SUM definition (R7): the two octets as received, judged at LOAD END. -/
structure DerivedPart where
  overflow : Nat
  report : Nat
  deriving DecidableEq, Repr

/-- The kind of a field with the parts that belong to it (R5 to R8). A definition whose parts do not match its kind is
no value of this type: the Trunk Port refuses it with FORMAT (R8, R196). Only a NUMERIC definition holds a limit
policy (R6). -/
inductive FieldKind where
  | text
  | alpha
  | numeric (part : NumericPart) (policy : Nat)
  | product (part : NumericPart) (a b : Nat) (derived : DerivedPart)
  | sum (part : NumericPart) (source : Nat) (derived : DerivedPart)
  deriving DecidableEq, Repr

/-- A field definition as received (R4). `row` is 0 for a ROW field; an empty `initial` is an absent one. -/
structure FieldDef where
  id : Nat
  rowRegion : Bool
  prot : Bool
  mandatoryEntry : Bool
  mandatoryFill : Bool
  autoSkip : Bool
  kind : FieldKind
  attr : Nat
  row : Nat
  col : Nat
  width : Nat
  initial : Text
  deriving DecidableEq, Repr

/-- A literal run as received (R9). -/
structure LiteralRun where
  row : Nat
  col : Nat
  attr : Nat
  text : Text
  deriving DecidableEq, Repr

/-- One entry of a LOAD PART (R14). -/
inductive LoadEntry where
  | field (d : FieldDef)
  | literal (l : LiteralRun)
  deriving DecidableEq, Repr

/-- The repeat-group definition (R3): first band row g, visible rows V, maximum rows M and the operator flags. -/
structure Group where
  first : Nat
  visible : Nat
  maxRows : Nat
  insertAllowed : Bool
  deleteAllowed : Bool
  deriving DecidableEq, Repr

/-- The parts of a LOAD BEGIN (R13, 11.2). -/
structure LoadBegin where
  id : Nat
  group : Group
  fixedCount : Nat
  rowCount : Nat
  literalCount : Nat
  literalTotal : Nat
  deriving DecidableEq, Repr

/-- A value carried for a field: an id and a text. -/
structure ValueEntry where
  id : Nat
  text : Text
  deriving DecidableEq, Repr

/-- A row carried by COMPOSE, APPEND ROW or INSERT ROW: a tag (0 = none) and values. -/
structure RowEntry where
  tag : Nat
  values : List ValueEntry
  deriving DecidableEq, Repr

/-- A field reference: an id and a row position (0 = absent). -/
structure FieldRef where
  id : Nat
  position : Nat
  deriving DecidableEq, Repr

/-- A COMPOSE record (R110, 11.2). A cursor id of 0 is an absent cursor reference. -/
structure ComposeRec where
  id : Nat
  unlock : Bool
  keepTypeAhead : Bool
  report : Bool
  cursor : FieldRef
  fixed : List ValueEntry
  rows : List RowEntry
  deriving DecidableEq, Repr

/-- One entry of a FILL (R110, 11.2). -/
inductive FillEntry where
  | set (ref : FieldRef) (text : Text)
  | appendRow (row : RowEntry)
  | insertRow (position : Nat) (row : RowEntry)
  | deleteRow (position : Nat)
  | tagRow (position tag : Nat)
  | cursor (ref : FieldRef)
  deriving DecidableEq, Repr

/-- A decoded station record (R110). -/
inductive StationRecord where
  | compose (c : ComposeRec)
  | fill (entries : List FillEntry) (unlock clearModified : Bool)
  | note (alarm : Bool) (text : Text)
  | lock
  | unlock
  | resetModified
  | read
  | release
  deriving DecidableEq, Repr

/-- A decoded control record (10.4, 11.2). A station, window or loop parameter of 0 that means "absent" stays 0 here. -/
inductive ControlRecord where
  | loadBegin (p : LoadBegin)
  | loadPart (entries : List LoadEntry)
  | loadEnd
  | loadAbandon
  | dropTemplate (id : Nat)
  | attachStation (station window : Nat)
  | detachStation (station : Nat)
  | loopStart (speed window missLimit : Nat)
  | loopStop
  | queryComposer
  | queryStation (station : Nat)
  | setEvents (kinds : Mask)
  | clearEvents (kinds : Mask) (stations : Option Mask)
  | resetComposer
  deriving DecidableEq, Repr

/-- A trunk frame as the receiver has read it behind its start pattern (R179). With a declared length above 4,096 the
frame ended at its length octets: the payload is empty and `check` was not read. -/
structure TrunkFrame where
  address : Byte
  kind : Byte
  length : BitVec 16
  payload : List Byte
  check : BitVec 16
  deriving DecidableEq, Repr

/-- The commands of the block: one constructor for each row of spec/opcode_table.json, in the table's order.

A record's command is the arrival of the frame that carries it (R179: the port acts when the last check octet has been
received), so it finds the receiver in a frame begun by `firstOctet`; with the receiver hunting, the command stands for
its whole frame, first octet included (assumption 2). A FILL entry's row is a FILL of that one entry without options;
a FILL of any entries and options arrives by `recordJoinsQueue` (assumption 3). -/
inductive Instr where
  | powerOn
  | resetInputAsserted
  | resetInputReleased
  | loopHoldAsserted
  | loopHoldDeasserted
  | firstOctet
  | frameRefused (frame : TrunkFrame)
  | loadBegin (p : LoadBegin)
  | loadPart (entries : List LoadEntry)
  | loadEnd
  | loadAbandon
  | dropTemplate (id : Nat)
  | attachStation (station window : Nat)
  | detachStation (station : Nat)
  | loopStart (speed window missLimit : Nat)
  | loopStop
  | queryComposer
  | queryStation (station : Nat)
  | setEvents (kinds : Mask)
  | clearEvents (kinds : Mask) (stations : Option Mask)
  | resetComposer
  | compose (i : StationId) (c : ComposeRec)
  | set (i : StationId) (ref : FieldRef) (text : Text)
  | appendRow (i : StationId) (row : RowEntry)
  | insertRow (i : StationId) (position : Nat) (row : RowEntry)
  | deleteRow (i : StationId) (position : Nat)
  | tagRow (i : StationId) (position tag : Nat)
  | cursor (i : StationId) (ref : FieldRef)
  | clearModified (i : StationId) (entries : List FillEntry) (unlock : Bool)
  | note (i : StationId) (alarm : Bool) (text : Text)
  | lock (i : StationId)
  | unlock (i : StationId)
  | resetModified (i : StationId)
  | read (i : StationId)
  | release (i : StationId)
  | transmissionStart
  | lastOctetTransmitted
  | visitStart
  | frameTransmitted
  | goodAnswer (e r : Fin 8) (keys : List Byte)
  | badAnswer (octets : List Byte)
  | answerLineIdle
  | windowExpiry
  | secondOctetNotStartPattern
  | recordJoinsQueue (i : StationId) (record : StationRecord)
  deriving DecidableEq, Repr

end Sys2Proof
end

