-- ==== Sys2Proof/Decode.lean ====
section
/-! DEFINITION. Decoding. `decodeTableWord` is the host's question; spec/opcode_table.json gives no row any bits, so it
answers `none`. Behind it stand the octet layouts of 11.1 and 11.2 for outbound records: the check of a trunk frame
(R179), the decoder the Trunk Port uses (R196), total on any octets, and after it the encoder of the same layouts. -/

namespace Sys2Proof

/-- The command a table word spells. The rows of spec/opcode_table.json have no bits: their commands are events and
records, not words. -/
def decodeTableWord (_nbits _w : Nat) : Option Instr := none

/-! ### Octets -/

/-- The low octet of a number. -/
def octet (n : Nat) : Byte := BitVec.ofNat 8 n

/-- R196: a number of two octets, high octet first. -/
def encodeWord (m : BitVec 16) : List Byte := [m.extractLsb' 8 8, m.extractLsb' 0 8]

/-- R196: a number as two octets, high octet first. -/
def octets2 (n : Nat) : List Byte := [octet (n / 256), octet n]

/-- R196: a limit mantissa, 6 octets in two's complement. -/
def octets6 (m : Int) : List Byte :=
  let u := (m % 2 ^ 48).toNat
  [octet (u / 2 ^ 40), octet (u / 2 ^ 32), octet (u / 2 ^ 24), octet (u / 2 ^ 16), octet (u / 2 ^ 8), octet u]

/-- R196: a text behind its length octet. -/
def encodeText (t : Text) : List Byte := octet t.length :: t

def flag (b : Bool) (n : Nat) : Nat := if b then 2 ^ n else 0

/-! ### The check of a frame (R179) -/

/-- One bit of the CRC-16 with polynomial x^16 + x^12 + x^5 + 1, most significant bit first. -/
def crcBit (c : BitVec 16) : BitVec 16 := if c.msb then (c <<< 1) ^^^ 0x1021 else c <<< 1

/-- One octet of the CRC-16. -/
def crcOctet (c : BitVec 16) (b : Byte) : BitVec 16 :=
  let c := c ^^^ (b.zeroExtend 16 <<< 8)
  crcBit (crcBit (crcBit (crcBit (crcBit (crcBit (crcBit (crcBit c)))))))

/-- R179: the CRC-16 of a run of octets, initial value FFFFh. -/
def crc16 (l : List Byte) : BitVec 16 := l.foldl crcOctet 0xFFFF

/-- R179: the octets a frame's check is computed over. -/
def checkedOctets (address kind : Byte) (payload : List Byte) : List Byte :=
  address :: kind :: (octets2 payload.length ++ payload)

/-! ### Reading parts -/

/-- Read one octet. -/
def getOctet : List Byte → Option (Nat × List Byte)
  | [] => none
  | b :: rest => some (b.toNat, rest)

/-- Read a number of two octets. -/
def getWord : List Byte → Option (Nat × List Byte)
  | a :: b :: rest => some (256 * a.toNat + b.toNat, rest)
  | _ => none

/-- Read a mask of two octets. -/
def getMask : List Byte → Option (Mask × List Byte)
  | a :: b :: rest => some (a ++ b, rest)
  | _ => none

/-- Read a 6-octet two's complement mantissa. -/
def getMantissa : List Byte → Option (Int × List Byte)
  | a :: b :: c :: d :: e :: f :: rest => some ((a ++ b ++ c ++ d ++ e ++ f : BitVec 48).toInt, rest)
  | _ => none

/-- Read a text behind its length octet. -/
def getText : List Byte → Option (Text × List Byte)
  | [] => none
  | n :: rest => if n.toNat ≤ rest.length then some (rest.take n.toNat, rest.drop n.toNat) else none

/-- Read `n` entries one behind the other. -/
def getMany {α : Type} (get : List Byte → Option (α × List Byte)) : Nat → List Byte → Option (List α × List Byte)
  | 0, bs => some ([], bs)
  | n + 1, bs => do
    let (x, bs) ← get bs
    let (xs, bs) ← getMany get n bs
    pure (x :: xs, bs)

/-- Read a list behind its entry count. -/
def getList {α : Type} (get : List Byte → Option (α × List Byte)) (bs : List Byte) : Option (List α × List Byte) := do
  let (n, bs) ← getOctet bs
  getMany get n bs

/-- A payload is decoded when nothing remains behind its last part (R196). -/
def finish {α : Type} (r : Option (α × List Byte)) : Option α :=
  match r with
  | some (x, []) => some x
  | _ => none

/-! ### Reading records (11.2) -/

def getValue (bs : List Byte) : Option (ValueEntry × List Byte) := do
  let (id, bs) ← getOctet bs
  let (text, bs) ← getText bs
  pure ({ id := id, text := text }, bs)

def getRow (bs : List Byte) : Option (RowEntry × List Byte) := do
  let (tag, bs) ← getWord bs
  let (values, bs) ← getList getValue bs
  pure ({ tag := tag, values := values }, bs)

def getRef (bs : List Byte) : Option (FieldRef × List Byte) := do
  let (id, bs) ← getOctet bs
  let (position, bs) ← getOctet bs
  pure ({ id := id, position := position }, bs)

/-- An optional limit of a numeric part, present as flagged. -/
def getLimit (present : Bool) (bs : List Byte) : Option (Option Int × List Byte) :=
  if present then (getMantissa bs).map (fun r => (some r.1, r.2)) else some (none, bs)

/-- The numeric part and its limit policy octet; the signed flag stands in the flags octet. -/
def getNumeric (signed : Bool) (bs : List Byte) : Option ((NumericPart × Nat) × List Byte) := do
  let (scale, bs) ← getOctet bs
  let (presence, bs) ← getOctet bs
  let (policy, bs) ← getOctet bs
  let (min, bs) ← getLimit (presence.testBit 0) bs
  let (max, bs) ← getLimit (presence.testBit 1) bs
  pure (({ signed := signed, scale := scale, min := min, max := max }, policy), bs)

def getDerived (bs : List Byte) : Option (DerivedPart × List Byte) := do
  let (overflow, bs) ← getOctet bs
  let (report, bs) ← getOctet bs
  pure ({ overflow := overflow, report := report }, bs)

/-- R8, R196: the parts behind the part-presence octet, which must match the kind octet (numbered as in 11.3). -/
def getKind (kind presence : Nat) (signed : Bool) (bs : List Byte) : Option (FieldKind × List Byte) :=
  match kind, presence % 16 with
  | 0, 0 => some (.text, bs)
  | 1, 0 => some (.alpha, bs)
  | 2, 1 => (getNumeric signed bs).map (fun r => (.numeric r.1.1 r.1.2, r.2))
  | 3, 11 => do
    let (part, bs) ← getNumeric signed bs
    let (a, bs) ← getOctet bs
    let (b, bs) ← getOctet bs
    let (derived, bs) ← getDerived bs
    pure (.product part.1 a b derived, bs)
  | 4, 13 => do
    let (part, bs) ← getNumeric signed bs
    let (source, bs) ← getOctet bs
    let (derived, bs) ← getDerived bs
    pure (.sum part.1 source derived, bs)
  | _, _ => none

def getField (bs : List Byte) : Option (FieldDef × List Byte) := do
  let (id, bs) ← getOctet bs
  let (flags, bs) ← getOctet bs
  let (kind, bs) ← getOctet bs
  let (attr, bs) ← getOctet bs
  let (row, bs) ← getOctet bs
  let (col, bs) ← getOctet bs
  let (width, bs) ← getOctet bs
  let (presence, bs) ← getOctet bs
  let (k, bs) ← getKind kind presence (flags.testBit 5) bs
  let (initial, bs) ← getText bs
  pure ({ id := id, rowRegion := flags.testBit 0, prot := flags.testBit 1, mandatoryEntry := flags.testBit 2
          mandatoryFill := flags.testBit 3, autoSkip := flags.testBit 4, kind := k, attr := attr, row := row
          col := col, width := width, initial := initial }, bs)

def getLiteral (bs : List Byte) : Option (LiteralRun × List Byte) := do
  let (row, bs) ← getOctet bs
  let (col, bs) ← getOctet bs
  let (attr, bs) ← getOctet bs
  let (text, bs) ← getText bs
  pure ({ row := row, col := col, attr := attr, text := text }, bs)

def getLoadEntry (bs : List Byte) : Option (LoadEntry × List Byte) := do
  let (type, bs) ← getOctet bs
  match type with
  | 1 => (getField bs).map (fun r => (.field r.1, r.2))
  | 2 => (getLiteral bs).map (fun r => (.literal r.1, r.2))
  | _ => none

def getLoadBegin (bs : List Byte) : Option (LoadBegin × List Byte) := do
  let (id, bs) ← getOctet bs
  let (first, bs) ← getOctet bs
  let (visible, bs) ← getOctet bs
  let (maxRows, bs) ← getOctet bs
  let (flags, bs) ← getOctet bs
  let (fixedCount, bs) ← getOctet bs
  let (rowCount, bs) ← getOctet bs
  let (literalCount, bs) ← getOctet bs
  let (literalTotal, bs) ← getWord bs
  pure ({ id := id
          group := { first := first, visible := visible, maxRows := maxRows
                     insertAllowed := flags.testBit 0, deleteAllowed := flags.testBit 1 }
          fixedCount := fixedCount, rowCount := rowCount, literalCount := literalCount
          literalTotal := literalTotal }, bs)

def getFillEntry (bs : List Byte) : Option (FillEntry × List Byte) := do
  let (type, bs) ← getOctet bs
  match type with
  | 1 => do
    let (ref, bs) ← getRef bs
    let (text, bs) ← getText bs
    pure (.set ref text, bs)
  | 2 => (getRow bs).map (fun r => (.appendRow r.1, r.2))
  | 3 => do
    let (position, bs) ← getOctet bs
    let (row, bs) ← getRow bs
    pure (.insertRow position row, bs)
  | 4 => (getOctet bs).map (fun r => (.deleteRow r.1, r.2))
  | 5 => do
    let (position, bs) ← getOctet bs
    let (tag, bs) ← getWord bs
    pure (.tagRow position tag, bs)
  | 6 => (getRef bs).map (fun r => (.cursor r.1, r.2))
  | _ => none

def getCompose (bs : List Byte) : Option (ComposeRec × List Byte) := do
  let (id, bs) ← getOctet bs
  let (options, bs) ← getOctet bs
  let (cursor, bs) ← getRef bs
  let (fixed, bs) ← getList getValue bs
  let (rows, bs) ← getList getRow bs
  pure ({ id := id, unlock := options.testBit 0, keepTypeAhead := options.testBit 1, report := options.testBit 2
          cursor := cursor, fixed := fixed, rows := rows }, bs)

def getFill (bs : List Byte) : Option (StationRecord × List Byte) := do
  let (options, bs) ← getOctet bs
  let (entries, bs) ← getList getFillEntry bs
  pure (.fill entries (options.testBit 0) (options.testBit 1), bs)

def getNote (bs : List Byte) : Option (StationRecord × List Byte) := do
  let (options, bs) ← getOctet bs
  let (text, bs) ← getText bs
  pure (.note (options.testBit 0) text, bs)

def getClearEvents (bs : List Byte) : Option (ControlRecord × List Byte) := do
  let (kinds, bs) ← getMask bs
  let (present, bs) ← getOctet bs
  let (stations, bs) ← getMask bs
  pure (.clearEvents kinds (if present = 0 then none else some stations), bs)

/-- R196: decode the payload of a control record kind. -/
def decodeControl (kind : Nat) (bs : List Byte) : Option ControlRecord :=
  match kind with
  | 0x01 => finish ((getLoadBegin bs).map (fun r => (.loadBegin r.1, r.2)))
  | 0x02 => finish ((getList getLoadEntry bs).map (fun r => (.loadPart r.1, r.2)))
  | 0x03 => finish (some (.loadEnd, bs))
  | 0x04 => finish (some (.loadAbandon, bs))
  | 0x05 => finish ((getOctet bs).map (fun r => (.dropTemplate r.1, r.2)))
  | 0x06 => finish (do
    let (station, bs) ← getOctet bs
    let (window, bs) ← getOctet bs
    pure (.attachStation station window, bs))
  | 0x07 => finish ((getOctet bs).map (fun r => (.detachStation r.1, r.2)))
  | 0x08 => finish (do
    let (speed, bs) ← getOctet bs
    let (window, bs) ← getOctet bs
    let (missLimit, bs) ← getOctet bs
    pure (.loopStart speed window missLimit, bs))
  | 0x09 => finish (some (.loopStop, bs))
  | 0x0A => finish (some (.queryComposer, bs))
  | 0x0B => finish ((getOctet bs).map (fun r => (.queryStation r.1, r.2)))
  | 0x0C => finish ((getMask bs).map (fun r => (.setEvents r.1, r.2)))
  | 0x0D => finish (getClearEvents bs)
  | 0x0E => finish (some (.resetComposer, bs))
  | _ => none

/-- R196: decode the payload of a station record kind. -/
def decodeStation (kind : Nat) (bs : List Byte) : Option StationRecord :=
  match kind with
  | 0x20 => finish ((getCompose bs).map (fun r => (.compose r.1, r.2)))
  | 0x21 => finish (getFill bs)
  | 0x22 => finish (getNote bs)
  | 0x23 => finish (some (.lock, bs))
  | 0x24 => finish (some (.unlock, bs))
  | 0x25 => finish (some (.resetModified, bs))
  | 0x26 => finish (some (.read, bs))
  | 0x27 => finish (some (.release, bs))
  | _ => none

/-! ### Writing records: the encoder of the same layouts -/

/-- 11.2: the kind octet of a control record. -/
def controlKind (r : ControlRecord) : Nat :=
  match r with
  | .loadBegin _ => 0x01
  | .loadPart _ => 0x02
  | .loadEnd => 0x03
  | .loadAbandon => 0x04
  | .dropTemplate _ => 0x05
  | .attachStation _ _ => 0x06
  | .detachStation _ => 0x07
  | .loopStart _ _ _ => 0x08
  | .loopStop => 0x09
  | .queryComposer => 0x0A
  | .queryStation _ => 0x0B
  | .setEvents _ => 0x0C
  | .clearEvents _ _ => 0x0D
  | .resetComposer => 0x0E

/-- 11.2: the kind octet of a station record. -/
def stationKind (r : StationRecord) : Nat :=
  match r with
  | .compose _ => 0x20
  | .fill _ _ _ => 0x21
  | .note _ _ => 0x22
  | .lock => 0x23
  | .unlock => 0x24
  | .resetModified => 0x25
  | .read => 0x26
  | .release => 0x27

/-- A list behind its entry count. -/
def encodeList {α : Type} (encode : α → List Byte) (l : List α) : List Byte := octet l.length :: l.flatMap encode

def encodeValue (x : ValueEntry) : List Byte := octet x.id :: encodeText x.text

def encodeRow (x : RowEntry) : List Byte := octets2 x.tag ++ encodeList encodeValue x.values

def encodeRef (x : FieldRef) : List Byte := [octet x.id, octet x.position]

def encodeLimit (x : Option Int) : List Byte :=
  match x with
  | some m => octets6 m
  | none => []

def encodeNumeric (p : NumericPart) (policy : Nat) : List Byte :=
  [octet p.scale, octet (flag p.min.isSome 0 + flag p.max.isSome 1), octet policy] ++ encodeLimit p.min ++ encodeLimit p.max

def encodeDerived (d : DerivedPart) : List Byte := [octet d.overflow, octet d.report]

/-- The kind octet, the part-presence octet and the kind-specific parts of a field definition. -/
def encodeKind (k : FieldKind) : Nat × Nat × List Byte :=
  match k with
  | .text => (0, 0, [])
  | .alpha => (1, 0, [])
  | .numeric p policy => (2, 1, encodeNumeric p policy)
  | .product p a b d => (3, 11, encodeNumeric p 0 ++ [octet a, octet b] ++ encodeDerived d)
  | .sum p source d => (4, 13, encodeNumeric p 0 ++ [octet source] ++ encodeDerived d)

/-- Whether the signed bit of the flags octet is set for a kind. -/
def kindSigned (k : FieldKind) : Bool :=
  match k with
  | .text => false
  | .alpha => false
  | .numeric p _ => p.signed
  | .product p _ _ _ => p.signed
  | .sum p _ _ => p.signed

def encodeField (d : FieldDef) : List Byte :=
  let k := encodeKind d.kind
  [octet d.id,
   octet (flag d.rowRegion 0 + flag d.prot 1 + flag d.mandatoryEntry 2 + flag d.mandatoryFill 3 + flag d.autoSkip 4
     + flag (kindSigned d.kind) 5),
   octet k.1, octet d.attr, octet d.row, octet d.col, octet d.width, octet k.2.1] ++ k.2.2 ++ encodeText d.initial

def encodeLiteral (l : LiteralRun) : List Byte := [octet l.row, octet l.col, octet l.attr] ++ encodeText l.text

def encodeLoadEntry (e : LoadEntry) : List Byte :=
  match e with
  | .field d => octet 1 :: encodeField d
  | .literal l => octet 2 :: encodeLiteral l

def encodeLoadBegin (p : LoadBegin) : List Byte :=
  [octet p.id, octet p.group.first, octet p.group.visible, octet p.group.maxRows,
   octet (flag p.group.insertAllowed 0 + flag p.group.deleteAllowed 1), octet p.fixedCount, octet p.rowCount,
   octet p.literalCount] ++ octets2 p.literalTotal

def encodeFillEntry (e : FillEntry) : List Byte :=
  match e with
  | .set ref text => octet 1 :: (encodeRef ref ++ encodeText text)
  | .appendRow row => octet 2 :: encodeRow row
  | .insertRow position row => octet 3 :: octet position :: encodeRow row
  | .deleteRow position => [octet 4, octet position]
  | .tagRow position tag => octet 5 :: octet position :: octets2 tag
  | .cursor ref => octet 6 :: encodeRef ref

def encodeCompose (c : ComposeRec) : List Byte :=
  [octet c.id, octet (flag c.unlock 0 + flag c.keepTypeAhead 1 + flag c.report 2)] ++ encodeRef c.cursor
    ++ encodeList encodeValue c.fixed ++ encodeList encodeRow c.rows

/-- The payload of a control record (11.2). -/
def encodeControl (r : ControlRecord) : List Byte :=
  match r with
  | .loadBegin p => encodeLoadBegin p
  | .loadPart entries => encodeList encodeLoadEntry entries
  | .loadEnd => []
  | .loadAbandon => []
  | .dropTemplate id => [octet id]
  | .attachStation station window => [octet station, octet window]
  | .detachStation station => [octet station]
  | .loopStart speed window missLimit => [octet speed, octet window, octet missLimit]
  | .loopStop => []
  | .queryComposer => []
  | .queryStation station => [octet station]
  | .setEvents kinds => encodeWord kinds
  | .clearEvents kinds stations =>
    encodeWord kinds ++ [octet (if stations.isSome then 1 else 0)] ++ encodeWord (stations.getD 0)
  | .resetComposer => []

/-- The payload of a station record (11.2). -/
def encodeStation (r : StationRecord) : List Byte :=
  match r with
  | .compose c => encodeCompose c
  | .fill entries unlock clearModified =>
    octet (flag unlock 0 + flag clearModified 1) :: encodeList encodeFillEntry entries
  | .note alarm text => octet (flag alarm 0) :: encodeText text
  | .lock => []
  | .unlock => []
  | .resetModified => []
  | .read => []
  | .release => []

/-- R179: the frame, behind its start pattern, that carries a payload to an address. -/
def frameOf (address kind : Byte) (payload : List Byte) : TrunkFrame :=
  { address := address, kind := kind, length := BitVec.ofNat 16 payload.length, payload := payload
    check := crc16 (checkedOctets address kind payload) }

end Sys2Proof
end

