-- ==== Sys2Proof/Machine/State.lean ====
section
/-! DEFINITION. The state of the Lozset 7240 as plain data, the reasons a step can stop, and the state after reset.
Two views are computed instead of stored, so that no two fields can disagree: the trunk-ready output
(`State.trunkReady`, R180) and the free counts of the template store (`State.freeEntries` and its companions, R1). -/

namespace Sys2Proof.Machine

/-! ### Template Store (01) -/

/-- R2, R19: the two statuses of a template version. -/
inductive VersionStatus where
  | live
  | retired
  deriving DecidableEq, Repr

/-- R2: a template version record. Its table entry is its index in `State.table`. -/
structure TemplateVersion where
  id : Nat
  version : Nat
  status : VersionStatus
  useCount : Nat
  group : Group
  fixed : List FieldDef
  rowDefs : List FieldDef
  literals : List LiteralRun
  deriving DecidableEq, Repr

/-- R12: a staged load. `entry` is the table entry its reservation holds; the characters received are the total of the
texts in `literals`. -/
structure Staging where
  entry : EntryId
  declared : LoadBegin
  fixed : List FieldDef
  rowDefs : List FieldDef
  literals : List LiteralRun
  deriving DecidableEq, Repr

/-! ### Station Contexts (02) -/

/-- R23: the station states. -/
inductive StationState where
  | detached
  | blank
  | composing
  | entry
  | held
  | attention
  | releasing
  deriving DecidableEq, Repr

/-- R23, R70: the operator-error codes. -/
inductive ErrorCode where
  | isProtected
  | numeric
  | letters
  | range
  | full
  | mandatory
  | noRoom
  | overrun
  | lineCheck
  deriving DecidableEq, Repr

/-- R23: the keyboard lock. -/
inductive Lock where
  | none
  | system
  | snapshot
  | operatorError (code : ErrorCode)
  deriving DecidableEq, Repr

/-- R29: the status of a derived instance; a TEXT, ALPHA or NUMERIC instance stays VALID with excursion count 0. -/
inductive DerivedStatus where
  | valid
  | saturated
  | held
  deriving DecidableEq, Repr

/-- R29: a field instance. -/
structure FieldInst where
  text : Text
  value : Option Int
  modified : Bool
  status : DerivedStatus
  excursion : Int
  deriving DecidableEq, Repr

/-- R30: a row record. -/
structure RowRec where
  insts : List FieldInst
  tag : Option Nat
  operatorCreated : Bool
  deriving DecidableEq, Repr

/-- R75: a screen position. -/
structure Pos where
  row : Nat
  col : Nat
  deriving DecidableEq, Repr

/-- R28: the context of a station. `entry` is the table entry of its template version. -/
structure Context where
  entry : EntryId
  fixed : List FieldInst
  rows : List RowRec
  first : Nat
  cursor : Pos
  insertMode : Bool
  editing : Bool
  deletedTags : List Nat
  adjusted : Bool
  deriving DecidableEq, Repr

/-! ### Paint Builder (08) -/

/-- R147: a dirty-list entry. Band slots are numbered from 1, field definitions from 0. -/
inductive Dirty where
  | field (i : Nat)
  | slot (k j : Nat)
  | band
  | message
  deriving DecidableEq, Repr

/-- R152, R153: a unit of a full repaint, named by its place; the repaint resume point names the next one. -/
inductive PaintUnit where
  | clear
  | literal (i : Nat)
  | field (i : Nat)
  | band (k j : Nat)
  | message
  deriving DecidableEq, Repr

/-- R155: the band resume point: slot `k` (from 1) and row field `j` (from 0). -/
structure BandPoint where
  k : Nat
  j : Nat
  deriving DecidableEq, Repr

/-- R145, R157: the compose-end marker. -/
inductive Marker where
  | none
  | owed
  | carried (number : Fin 8)
  deriving DecidableEq, Repr

/-- R145: the paint state of a station. The full-repaint flag is set exactly while `resume` is present. -/
structure Paint where
  dirty : List Dirty
  resume : Option PaintUnit
  band : Option BandPoint
  cursorPending : Bool
  alarm : Bool
  marker : Marker
  deriving DecidableEq, Repr

/-- R146: a paint order. -/
inductive Order where
  | clear
  | position (row col : Nat)
  | attr (a : Nat)
  | text (t : Text)
  | eraseToRowEnd
  | cursor (row col : Nat)
  | alarm
  deriving DecidableEq, Repr

/-! ### Loop Controller (09) -/

/-- R163: the loop record of an attached station. -/
structure LoopRecord where
  online : Bool
  missCount : Nat
  n : Fin 8
  a : Fin 8
  restart : Bool
  window : Nat
  deriving DecidableEq, Repr

/-- R161: the loop states. -/
inductive LoopMode where
  | stopped
  | running
  | held
  deriving DecidableEq, Repr

/-- R165, R166: the frame of a visit; a paint frame's number, mark and block are fixed when it is built. -/
inductive LoopFrame where
  | poll
  | paint (number : Fin 8) (mark : Bool) (orders : List Order)
  deriving DecidableEq, Repr

/-- R164 to R166: the visit under way. `sent` says that the last octet of the frame has been transmitted, so that the
answer window is open. -/
structure Visit where
  station : StationId
  frame : LoopFrame
  sent : Bool
  deriving DecidableEq, Repr

/-- R161, R164, R175, R177: the loop. `pendingStop` is the slot of the LOOP STOP that waits for the end of the visit;
`last` is the station the visit order goes on from, absent when the next visit goes to the lowest attached station; an
ATTACH STATION of a running loop with none attached sets it just below its station, so that the next visit goes there. -/
structure Loop where
  mode : LoopMode
  speed : Nat
  window : Nat
  missLimit : Nat
  pendingStop : Option GenId
  visit : Option Visit
  last : Option StationId
  deriving DecidableEq, Repr

/-! ### Station record (02) -/

/-- R34: a record in a record queue, with the general slot reserved for it. -/
structure Queued where
  slot : GenId
  record : StationRecord
  deriving DecidableEq, Repr

/-- R23: a station record, with the paint state (R145) and the loop record (R163) kept for the station. `reportSlot` is
the report-pending option, as the slot a COMPOSE with report keeps (R43); `releaseSlot` is the slot of the RELEASE still
RELEASING (R45). -/
structure Station where
  state : StationState
  lock : Lock
  records : List Queued
  typeAhead : List Byte
  overrun : Bool
  ctx : Option Context
  note : Text
  unlockAtEnd : Bool
  reportSlot : Option GenId
  releaseSlot : Option GenId
  paint : Paint
  link : Option LoopRecord
  deriving DecidableEq, Repr

/-! ### Trunk Port and Control Unit (10) -/

/-- R182: the exception reasons. -/
inductive Reason where
  | frame
  | address
  | format
  | detached
  | queue
  | state
  | template
  | field
  | row
  | pool
  | store
  | load
  | limit
  deriving DecidableEq, Repr

/-- R182: an exception record. `target` is the station and kind of the refused record, absent for FRAME. -/
structure ExceptionRec where
  reason : Reason
  target : Option (Nat × Nat)
  step : Option Nat
  index : Option Nat
  deriving DecidableEq, Repr

/-- R191: the raw event set: the raised flags of the non-station kinds, by the mask bits of 11.3, and the station set of
each station kind. -/
structure RawEvents where
  flags : Mask
  offline : Mask
  online : Mask
  lineCheck : Mask
  overrun : Mask
  deriving DecidableEq, Repr

/-- R12, R189: the load state as a STATUS reply reports it. -/
structure LoadReport where
  id : Nat
  fixedCount : Nat
  rowCount : Nat
  literalCount : Nat
  literalTotal : Nat
  fixedReceived : Nat
  rowReceived : Nat
  literalReceived : Nat
  charsReceived : Nat
  deriving DecidableEq, Repr

/-- R189: the content of a STATUS reply. -/
structure StatusReply where
  mode : LoopMode
  speed : Nat
  window : Nat
  missLimit : Nat
  freeEntries : Nat
  freeDefinitions : Nat
  freeLiterals : Nat
  freeRows : Nat
  load : Option LoadReport
  stations : List StationState
  raw : RawEvents
  enable : Mask
  deriving DecidableEq, Repr

/-- R190: what a STATION STATUS reply reports of a context. -/
structure ContextReport where
  id : Nat
  version : Nat
  n : Nat
  first : Nat
  cursor : Pos
  deriving DecidableEq, Repr

/-- R190: what a STATION STATUS reply reports of an attached station. -/
structure AttachedReport where
  lock : Lock
  ctx : Option ContextReport
  inFlight : Nat
  online : Bool
  missCount : Nat
  dirty : Nat
  typeAhead : Nat
  deriving DecidableEq, Repr

/-- The inbound records a general slot carries. All but SNAPSHOT are built when they are placed (R185). -/
inductive Inbound where
  | done (kind : Nat)
  | loaded (id version : Nat) (retired : Option Nat)
  | status (r : StatusReply)
  | stationStatus (state : StationState) (attached : Option AttachedReport)
  | composed
  | exception (e : ExceptionRec)
  | snapshot
  deriving DecidableEq, Repr

/-- R183: a general slot. An occupied slot holds the address its record leaves with and the record. -/
inductive GeneralSlot where
  | free
  | reserved
  | occupied (address : Nat) (r : Inbound)
  deriving DecidableEq, Repr

/-- R184: the event slot. -/
inductive EventSlot where
  | empty
  | waiting
  | sending
  | sendingOwed
  deriving DecidableEq, Repr

/-- A slot of the transmit queue (10.3). -/
inductive SlotName where
  | general (g : GenId)
  | attention (i : StationId)
  | event
  deriving DecidableEq, Repr

/-- R179, R180: the receiver: hunting, or at work on what its last A5h began, with the general slot reserved at that
octet, or with none when the frame is to be discarded. -/
inductive Receiver where
  | hunting
  | frame (slot : Option GenId)
  deriving DecidableEq, Repr

/-- R185, R186: the transmitter: sending fill, sending the record of a slot with the octets built at its start, or
sending the rest of a cut frame, whose octets on the line are given whole. -/
inductive Transmitter where
  | idle
  | sending (slot : SlotName) (octets : List Byte)
  | completing (octets : List Byte)
  deriving DecidableEq, Repr

/-! ### Stops -/

/-- The faults of the machine. There are none: the spec lets no command stop the part, and every wrong record, frame or
answer has an effect that a rule states. -/
inductive Fault
  deriving DecidableEq, Repr

/-- The refusals of the machine. -/
inductive Refusal where
  /-- A command that has no meaning yet, by its mnemonic; raised only by `exec`'s own arms (safe). None is left. -/
  | notModelled (mnemonic : String)
  deriving DecidableEq, Repr

/-! ### The state -/

/-- The whole state of the part (INVENTORY.md lists each field with its rule). `pending` is the queue of commands of a
block model. `waiting` names the slots whose records wait, the one that has waited longest first (R185). `cuts` is the
model's own counter of cut frames (assumption 7). -/
structure State where
  pending : List Instr
  resetInput : Bool
  holdInput : Bool
  rx : Receiver
  general : Vector GeneralSlot 24
  attention : Vector (Option Byte) 16
  event : EventSlot
  waiting : List SlotName
  tx : Transmitter
  cuts : Nat
  raw : RawEvents
  enable : Mask
  staging : Option Staging
  table : Vector (Option TemplateVersion) 48
  nextVersion : Vector Nat 250
  freeRows : Nat
  stations : Vector Station 16
  loop : Loop
  deriving DecidableEq, Repr

/-- R160: the paint state of a DETACHED station. -/
def Paint.clear : Paint :=
  { dirty := [], resume := none, band := none, cursorPending := false, alarm := false, marker := .none }

/-- R48: the record of a DETACHED station. -/
def Station.detachedRecord : Station :=
  { state := .detached, lock := .system, records := [], typeAhead := [], overrun := false, ctx := none
    note := spaces Config.noteWidth, unlockAtEnd := false, reportSlot := none, releaseSlot := none
    paint := Paint.clear, link := none }

/-- R161: the loop after a reset. -/
def Loop.stoppedDefault : Loop :=
  { mode := .stopped, speed := Config.defaultSpeed, window := Config.defaultWindow
    missLimit := Config.defaultMissLimit, pendingStop := none, visit := none, last := none }

/-- R191: the empty raw event set. -/
def RawEvents.empty : RawEvents := { flags := 0, offline := 0, online := 0, lineCheck := 0, overrun := 0 }

/-- The machine right after power-on (R195): every block in its start-up condition, STARTED raised and enabled, its
EVENT NOTICE waiting. The two input levels are released (assumption 1, DESIGN CHOICE). -/
def State.reset : State :=
  { pending := [], resetInput := false, holdInput := false, rx := .hunting
    general := Vector.replicate 24 .free, attention := Vector.replicate 16 none
    event := .waiting, waiting := [.event], tx := .idle, cuts := 0
    raw := { RawEvents.empty with flags := 1 }, enable := 1
    staging := none, table := Vector.replicate 48 none, nextVersion := Vector.replicate 250 0
    freeRows := Config.rowPool, stations := Vector.replicate 16 Station.detachedRecord
    loop := Loop.stoppedDefault }

end Sys2Proof.Machine
end

