-- ==== Sys2Proof/Machine/Operands.lean ====
section
/-! DEFINITION. What the commands operate on: characters and their classes (R5), numeric entries and display forms (R60,
R61), field definitions and their instances (R29), screen positions, the instance under the cursor (R50), the band
(R73) and the tab set (R76). -/

namespace Sys2Proof.Machine

/-! ### Characters -/

/-- The composer character set: 20h to 7Eh (00_scope §4). -/
def isComposerChar (c : Byte) : Bool := 0x20 ≤ c.toNat && c.toNat ≤ 0x7E

def isDigit (c : Byte) : Bool := 0x30 ≤ c.toNat && c.toNat ≤ 0x39

def hyphen : Byte := 0x2D
def period : Byte := 0x2E

/-- R5: the ALPHA class: letters, space, period, comma, hyphen and slash. -/
def isAlphaChar (c : Byte) : Bool :=
  (0x41 ≤ c.toNat && c.toNat ≤ 0x5A) || (0x61 ≤ c.toNat && c.toNat ≤ 0x7A)
    || c == space || c == period || c == 0x2C || c == hyphen || c == 0x2F

/-- R52: the characters a data key may write in a field of a kind. Derived fields take none. -/
def acceptsKey (k : FieldKind) (c : Byte) : Bool :=
  match k with
  | .text => isComposerChar c
  | .alpha => isAlphaChar c
  | .numeric _ _ => isDigit c || c == period || c == hyphen || c == space
  | .product _ _ _ _ => false
  | .sum _ _ _ => false

/-! ### Numeric fields -/

/-- What a numeric text depends on: the width, the signed flag and the scale of its field. -/
structure NumForm where
  width : Nat
  signed : Bool
  scale : Nat
  deriving DecidableEq, Repr

/-- R6: the digit count d of a field. -/
def NumForm.digits (f : NumForm) : Nat :=
  f.width - (if f.signed then 1 else 0) - (if f.scale > 0 then 1 else 0)

/-- R107: the largest magnitude a field's value may have. -/
def NumForm.limit (f : NumForm) : Nat := 10 ^ f.digits - 1

/-- The numeric part of a kind, absent for TEXT and ALPHA. -/
def numericPart (k : FieldKind) : Option NumericPart :=
  match k with
  | .text => none
  | .alpha => none
  | .numeric p _ => some p
  | .product p _ _ _ => some p
  | .sum p _ _ => some p

/-- The number form of a definition; for TEXT and ALPHA, which hold no number, an unsigned one of scale 0. -/
def numForm (d : FieldDef) : NumForm :=
  match numericPart d.kind with
  | some p => { width := d.width, signed := p.signed, scale := p.scale }
  | none => { width := d.width, signed := false, scale := 0 }

def isNumeric (d : FieldDef) : Bool :=
  match d.kind with
  | .numeric _ _ => true
  | _ => false

/-- PRODUCT or SUM (R7). -/
def isDerived (d : FieldDef) : Bool :=
  match d.kind with
  | .product _ _ _ _ => true
  | .sum _ _ _ => true
  | _ => false

/-- The value of a run of digits. -/
def digitsValue (t : Text) : Nat := t.foldl (fun n c => 10 * n + (c.toNat - 0x30)) 0

/-- A text without its leading and trailing spaces (R60). -/
def trim (t : Text) : Text := ((t.dropWhile (· == space)).reverse.dropWhile (· == space)).reverse

/-- R60: the mantissa of an unsigned part: digits with at most one period. -/
def parseMagnitude (f : NumForm) (body : Text) : Option Nat :=
  let whole := body.takeWhile isDigit
  match body.dropWhile isDigit with
  | [] =>
    if whole.length = 0 || whole.length > f.digits - f.scale then none
    else some (digitsValue whole * 10 ^ f.scale)
  | c :: fraction =>
    if c != period || f.scale = 0 || !fraction.all isDigit || whole.length + fraction.length = 0
        || fraction.length > f.scale || whole.length > f.digits - f.scale then none
    else some (digitsValue whole * 10 ^ f.scale + digitsValue fraction * 10 ^ (f.scale - fraction.length))

/-- R60: a numeric entry. `none` is an ill-formed text, `some none` a well-formed text with an absent value. -/
def parseEntry (f : NumForm) (t : Text) : Option (Option Int) :=
  if t.length > f.width then none
  else match trim t with
    | [] => some none
    | c :: body =>
      if c == hyphen then
        if f.signed then (parseMagnitude f body).map (fun m => some (-(m : Int))) else none
      else (parseMagnitude f (c :: body)).map (fun m => some (m : Int))

def digitCode (n : Nat) : Byte := BitVec.ofNat 8 (0x30 + n % 10)

/-- Decimal digits in front of `tail`; `fuel` bounds their number. -/
def decimalDigits : Nat → Nat → Text → Text
  | 0, _, tail => tail
  | fuel + 1, n, tail =>
    if n < 10 then digitCode n :: tail else decimalDigits fuel (n / 10) (digitCode (n % 10) :: tail)

/-- A number in decimal, with at least one digit and no leading zero beyond it. -/
def decimal (n : Nat) : Text := decimalDigits (n.log2 + 1) n []

/-- Exactly `s` fraction digits. -/
def fractionDigits : Nat → Nat → Text
  | 0, _ => []
  | s + 1, n => digitCode (n / 10 ^ s) :: fractionDigits s n

/-- R61: right-align a text in `w` characters. -/
def padLeft (w : Nat) (t : Text) : Text := spaces (w - t.length) ++ t

/-- A text followed by spaces to width `w`. -/
def padRight (w : Nat) (t : Text) : Text := t ++ spaces (w - t.length)

/-- R61: the display form of a value. -/
def displayForm (f : NumForm) (value : Option Int) : Text :=
  match value with
  | none => spaces f.width
  | some m =>
    let magnitude := m.natAbs
    let whole := decimal (magnitude / 10 ^ f.scale)
    let body := if f.scale > 0 then whole ++ period :: fractionDigits f.scale magnitude else whole
    padLeft f.width (if m < 0 then hyphen :: body else body)

/-! ### Instances as they are built -/

/-- R5, R93: the instance of a definition when it is built. -/
def initialInst (d : FieldDef) : FieldInst :=
  match d.kind with
  | .numeric _ _ =>
    match parseEntry (numForm d) d.initial with
    | some value =>
      { text := displayForm (numForm d) value, value := value, modified := false, status := .valid, excursion := 0 }
    | none => { text := spaces d.width, value := none, modified := false, status := .valid, excursion := 0 }
  | _ => { text := padRight d.width d.initial, value := none, modified := false, status := .valid, excursion := 0 }

/-- R30: a row record of a version as it is built. -/
def initialRow (defs : List FieldDef) (tag : Option Nat) (byOperator : Bool) : RowRec :=
  { insts := defs.map initialInst, tag := tag, operatorCreated := byOperator }

/-- R40, R116: what a host text writes in a TEXT, ALPHA or NUMERIC instance: the new text and committed value, or
`none` when the text fails its checks. -/
def hostText (d : FieldDef) (t : Text) : Option (Text × Option Int) :=
  if !t.all isComposerChar || t.length > d.width then none
  else match d.kind with
    | .numeric _ _ => (parseEntry (numForm d) t).map (fun value => (displayForm (numForm d) value, value))
    | _ => some (padRight d.width t, none)

/-- R117, R119: an instance after a host text: text and value written, modified flag clear. -/
def setByHost (x : FieldInst) (w : Text × Option Int) : FieldInst :=
  { x with text := w.1, value := w.2, modified := false }

/-! ### Screen geometry -/

/-- R75: screen order. -/
def Pos.before (p q : Pos) : Bool := p.row < q.row || (p.row == q.row && p.col < q.col)

/-- R75: the successor of a position. -/
def Pos.succ (p : Pos) : Pos :=
  if p.col < 80 then ⟨p.row, p.col + 1⟩ else if p.row < 23 then ⟨p.row + 1, 1⟩ else ⟨1, 1⟩

/-- R75: the predecessor of a position. -/
def Pos.pred (p : Pos) : Pos :=
  if p.col > 1 then ⟨p.row, p.col - 1⟩ else if p.row > 1 then ⟨p.row - 1, 80⟩ else ⟨23, 80⟩

/-- R84: the position above, wrapping from row 1 to row 23. -/
def Pos.up (p : Pos) : Pos := if p.row > 1 then ⟨p.row - 1, p.col⟩ else ⟨23, p.col⟩

/-- R84: the position below, wrapping from row 23 to row 1. -/
def Pos.down (p : Pos) : Pos := if p.row < 23 then ⟨p.row + 1, p.col⟩ else ⟨1, p.col⟩

/-- Whether a field definition's columns cover a column. -/
def coversCol (d : FieldDef) (col : Nat) : Bool := d.col ≤ col && col < d.col + d.width

/-- R3: whether a screen row is a band row of a group. -/
def isBandRow (g : Group) (row : Nat) : Bool := g.first ≤ row && row < g.first + g.visible

/-- R74: the bound max(1, n − V + 1) of the window first row. -/
def windowBound (g : Group) (n : Nat) : Nat := max 1 (n + 1 - g.visible)

/-- R74: clamp a window first row. -/
def clampFirst (g : Group) (n f : Nat) : Nat := min (max 1 f) (windowBound g n)

/-- A field instance of a context: a fixed one by its definition index, a row one by its row position (from 1) and its
definition index. -/
inductive InstRef where
  | fixed (i : Nat)
  | row (p j : Nat)
  deriving DecidableEq, Repr

/-- R73: whether the row at position `p` is in the window. -/
def Context.inWindow (g : Group) (c : Context) (p : Nat) : Bool := c.first ≤ p && p < c.first + g.visible

/-- R73: the row position shown in band slot `k`, when the slot is occupied. -/
def Context.slotRow (c : Context) (k : Nat) : Option Nat :=
  let p := c.first + k - 1
  if 1 ≤ p && p ≤ c.rows.length then some p else none

/-- The row record at position `p`, from 1. -/
def Context.row? (c : Context) (p : Nat) : Option RowRec := if p = 0 then none else c.rows[p - 1]?

/-- The definition an instance reference names. -/
def TemplateVersion.defOf (v : TemplateVersion) (r : InstRef) : Option FieldDef :=
  match r with
  | .fixed i => v.fixed[i]?
  | .row _ j => v.rowDefs[j]?

/-- The instance a reference names. -/
def Context.inst? (c : Context) (r : InstRef) : Option FieldInst :=
  match r with
  | .fixed i => c.fixed[i]?
  | .row p j => (c.row? p).bind (fun x => x.insts[j]?)

/-- Change one entry of a list. -/
def modifyNth {α : Type} (l : List α) (i : Nat) (f : α → α) : List α := l.modify i f

/-- Change the instance a reference names. -/
def Context.modInst (c : Context) (r : InstRef) (f : FieldInst → FieldInst) : Context :=
  match r with
  | .fixed i => { c with fixed := modifyNth c.fixed i f }
  | .row p j =>
    if p = 0 then c
    else { c with rows := modifyNth c.rows (p - 1) (fun x => { x with insts := modifyNth x.insts j f }) }

/-- R50: the instance whose field covers a screen position. -/
def instAt (v : TemplateVersion) (c : Context) (q : Pos) : Option InstRef :=
  if isBandRow v.group q.row then
    (c.slotRow (q.row - v.group.first + 1)).bind fun p =>
      (v.rowDefs.findIdx? (fun d => coversCol d q.col)).map (fun j => .row p j)
  else (v.fixed.findIdx? (fun d => d.row == q.row && coversCol d q.col)).map .fixed

/-- R50, R76: the field start of an instance; for a row instance, in the slot that shows its row. -/
def fieldStart (v : TemplateVersion) (c : Context) (r : InstRef) : Pos :=
  match r with
  | .fixed i => match v.fixed[i]? with
    | some d => ⟨d.row, d.col⟩
    | none => c.cursor
  | .row p j => match v.rowDefs[j]? with
    | some d => ⟨v.group.first + p - c.first, d.col⟩
    | none => c.cursor

/-- What the cursor is in: the reference, its definition and its instance. -/
structure Under where
  ref : InstRef
  field : FieldDef
  inst : FieldInst
  deriving DecidableEq, Repr

/-- R50: the instance under the cursor. -/
def under (v : TemplateVersion) (c : Context) : Option Under :=
  (instAt v c c.cursor).bind fun r =>
    (v.defOf r).bind fun d => (c.inst? r).map fun x => ⟨r, d, x⟩

/-! ### The tab set -/

/-- R76: the field starts of the tab set, in no order: a key finds its target by screen order. -/
def tabStarts (v : TemplateVersion) (c : Context) : List Pos :=
  (v.fixed.filter (fun d => !d.prot)).map (fun d => ⟨d.row, d.col⟩)
    ++ (List.range v.group.visible).flatMap (fun k =>
      if (c.slotRow (k + 1)).isSome then
        (v.rowDefs.filter (fun d => !d.prot)).map (fun d => ⟨v.group.first + k, d.col⟩)
      else [])

/-- The first position of a list in screen order. -/
def firstPos (l : List Pos) : Option Pos :=
  l.foldl (fun best q => match best with
    | none => some q
    | some b => if q.before b then some q else some b) none

/-- The last position of a list in screen order. -/
def lastPos (l : List Pos) : Option Pos :=
  l.foldl (fun best q => match best with
    | none => some q
    | some b => if b.before q then some q else some b) none

/-- R76: a key goes to (1, 1) when the tab set is empty. -/
def orOrigin (q : Option Pos) : Pos := q.getD ⟨1, 1⟩

/-- R82: the start of the first field of the tab set. -/
def homePos (v : TemplateVersion) (c : Context) : Pos := orOrigin (firstPos (tabStarts v c))

/-- R78: the first tab-set start after a position, wrapping. -/
def nextTab (v : TemplateVersion) (c : Context) (q : Pos) : Pos :=
  match firstPos ((tabStarts v c).filter (fun s => q.before s)) with
  | some s => s
  | none => homePos v c

/-- R80 case 3: the last tab-set start before a position, wrapping. -/
def previousTab (v : TemplateVersion) (c : Context) (q : Pos) : Pos :=
  match lastPos ((tabStarts v c).filter (fun s => s.before q)) with
  | some s => s
  | none => orOrigin (lastPos (tabStarts v c))

/-- R83: the first tab-set start on a later screen row, wrapping. -/
def nextRowTab (v : TemplateVersion) (c : Context) (q : Pos) : Pos :=
  match firstPos ((tabStarts v c).filter (fun s => q.row < s.row)) with
  | some s => s
  | none => homePos v c

/-- R79, R81: the columns of the first and the last UNPROTECTED row field definitions, in row-list column order. -/
def firstOpenCol (v : TemplateVersion) : Option Nat := ((v.rowDefs.filter (fun d => !d.prot)).head?).map FieldDef.col
def lastOpenCol (v : TemplateVersion) : Option Nat := ((v.rowDefs.filter (fun d => !d.prot)).getLast?).map FieldDef.col

/-! ### References of host records -/

/-- R115, R41: resolve a field reference against a version and the row list. -/
def resolveRef (v : TemplateVersion) (c : Context) (ref : FieldRef) : Except Reason (InstRef × FieldDef) :=
  match v.fixed.findIdx? (fun d => d.id == ref.id) with
  | some i => match v.fixed[i]? with
    | some d => if ref.position = 0 then .ok (.fixed i, d) else .error .field
    | none => .error .field
  | none => match v.rowDefs.findIdx? (fun d => d.id == ref.id) with
    | some j => match v.rowDefs[j]? with
      | some d =>
        if ref.position = 0 then .error .field
        else if ref.position ≤ c.rows.length then .ok (.row ref.position j, d) else .error .row
      | none => .error .field
    | none => .error .field

/-- R115, R118: a definition a host value may name: TEXT, ALPHA or NUMERIC. -/
def hostSettable (d : FieldDef) : Bool := !isDerived d

end Sys2Proof.Machine
end

