-- ==== Sys2Proof/Machine/Paint.lean ====
section
/-! DEFINITION. The Paint Builder (08): the dirty list and its laws (R147 to R150), setting a full repaint (R151), the
indicator and message line (R159), the paint units (R152, R153) and the building of a block (R154 to R157). -/

namespace Sys2Proof.Machine

/-! ### Setting a full repaint -/

/-- R151: the marker after an overflow or a request of the Loop Controller: CARRIED becomes OWED. -/
def Marker.again (m : Marker) : Marker :=
  match m with
  | .none => .none
  | .owed => .owed
  | .carried _ => .owed

/-- R151: set a full repaint. `hasCtx` says whether the station holds a context; without one the cursor-pending flag is
clear (R145). The pending ALARM is kept. -/
def Paint.setFull (p : Paint) (hasCtx : Bool) (m : Marker) : Paint :=
  { dirty := [], resume := some .clear, band := none, cursorPending := hasCtx, alarm := p.alarm, marker := m }

/-! ### The dirty list -/

/-- Band places in painting order. -/
def bandBefore (k j k' j' : Nat) : Bool := k < k' || (k == k' && j < j')

/-- R150: whether a full repaint whose resume point is `r` has already written the part an entry names. -/
def alreadyPainted (r : PaintUnit) (d : Dirty) : Bool :=
  match d with
  | .field i => match r with
    | .clear => false
    | .literal _ => false
    | .field i' => i < i'
    | .band _ _ => true
    | .message => true
  | .slot k j => match r with
    | .clear => false
    | .literal _ => false
    | .field _ => false
    | .band k' j' => bandBefore k j k' j'
    | .message => true
  | .band => match r with
    | .clear => false
    | .literal _ => false
    | .field _ => false
    | .band k' j' => bandBefore 1 0 k' j'
    | .message => true
  | .message => false

def isSlot (d : Dirty) : Bool :=
  match d with
  | .slot _ _ => true
  | _ => false

/-- R149: put an entry at the tail, or set a full repaint when the list would hold 65 entries. -/
def Paint.append (p : Paint) (hasCtx : Bool) (d : Dirty) : Paint :=
  if p.dirty.length < Config.dirtyList then { p with dirty := p.dirty ++ [d] }
  else p.setFull hasCtx p.marker.again

/-- R147 to R149, R155: add an entry that the full repaint, if one is pending, admits. -/
def Paint.insert (p : Paint) (hasCtx : Bool) (d : Dirty) : Paint :=
  match d with
  | .band =>
    if p.dirty.contains .band then
      { p with dirty := p.dirty.filter (fun x => !isSlot x), band := p.band.map (fun _ => ⟨1, 0⟩) }
    else Paint.append { p with dirty := p.dirty.filter (fun x => !isSlot x) } hasCtx .band
  | .slot k j =>
    if p.dirty.contains .band then
      match p.band with
      | some b => if bandBefore k j b.k b.j then { p with band := some ⟨1, 0⟩ } else p
      | none => p
    else if p.dirty.contains (.slot k j) then p
    else p.append hasCtx (.slot k j)
  | .field i => if p.dirty.contains (.field i) then p else p.append hasCtx (.field i)
  | .message => if p.dirty.contains .message then p else p.append hasCtx .message

/-- R147, R150: add an entry to the dirty list. -/
def Paint.add (p : Paint) (hasCtx : Bool) (d : Dirty) : Paint :=
  match p.resume with
  | some r => if alreadyPainted r d then p.insert hasCtx d else p
  | none => p.insert hasCtx d

/-- R145: whether the station has paint work. -/
def Paint.hasWork (p : Paint) (hasCtx : Bool) : Bool :=
  p.resume.isSome || !p.dirty.isEmpty || (p.cursorPending && hasCtx) || p.alarm

/-! ### The message line -/

def chars (l : List Char) : Text := l.map charCode

/-- The name of an operator-error code as the indicator shows it (R159). -/
def ErrorCode.name (c : ErrorCode) : Text :=
  match c with
  | .isProtected => chars ['P', 'R', 'O', 'T', 'E', 'C', 'T', 'E', 'D']
  | .numeric => chars ['N', 'U', 'M', 'E', 'R', 'I', 'C']
  | .letters => chars ['L', 'E', 'T', 'T', 'E', 'R', 'S']
  | .range => chars ['R', 'A', 'N', 'G', 'E']
  | .full => chars ['F', 'U', 'L', 'L']
  | .mandatory => chars ['M', 'A', 'N', 'D', 'A', 'T', 'O', 'R', 'Y']
  | .noRoom => chars ['N', 'O', ' ', 'R', 'O', 'O', 'M']
  | .overrun => chars ['O', 'V', 'E', 'R', 'R', 'U', 'N']
  | .lineCheck => chars ['L', 'I', 'N', 'E', ' ', 'C', 'H', 'E', 'C', 'K']

/-- R159: columns 1 to 12 of the indicator outside an operator error. A DETACHED station is never painted; its text is
spaces. -/
def indicatorWord (st : StationState) (l : Lock) (adjusted : Bool) : Text :=
  match st with
  | .detached => []
  | .blank => chars ['N', 'O', ' ', 'F', 'O', 'R', 'M']
  | .releasing => chars ['N', 'O', ' ', 'F', 'O', 'R', 'M']
  | .composing => chars ['W', 'A', 'I', 'T']
  | .held => chars ['H', 'E', 'L', 'D']
  | .attention => chars ['S', 'E', 'N', 'T']
  | .entry => match l with
    | .snapshot => chars ['R', 'E', 'A', 'D']
    | .none => if adjusted then chars ['A', 'D', 'J', 'U', 'S', 'T', 'E', 'D'] else []
    | .system => []
    | .operatorError _ => []

/-- R159: the 16 characters of the indicator. -/
def indicator (st : StationState) (l : Lock) (ctx : Option Context) : Text :=
  let adjusted := match ctx with
    | some c => c.adjusted
    | none => false
  let insertMode := match ctx with
    | some c => c.insertMode
    | none => false
  match st, l with
  | .entry, .operatorError code => padRight 16 (chars ['E', 'R', 'R', ' '] ++ code.name)
  | _, _ => padRight 12 (indicatorWord st l adjusted)
      ++ (if insertMode then chars [' ', 'I', 'N', 'S'] else spaces 4)

/-- R159: the 80 characters of the message line. -/
def messageLine (st : Station) : Text := indicator st.state st.lock st.ctx ++ st.note

/-! ### Units -/

/-- R153, R108: the attribute and the characters a field instance is painted with. -/
def paintedField (d : FieldDef) (x : FieldInst) : Nat × Text :=
  if isDerived d && x.status != .valid then (3, x.text)
  else if d.attr = 4 then (0, spaces d.width)
  else (d.attr, x.text)

/-- R153: the orders of a field instance at a screen position. -/
def fieldOrders (q : Pos) (d : FieldDef) (x : FieldInst) : List Order :=
  [.position q.row q.col, .attr (paintedField d x).1, .text (paintedField d x).2]

/-- R153: the orders of a literal run. -/
def literalOrders (l : LiteralRun) : List Order :=
  if l.attr = 4 then [.position l.row l.col, .attr 0, .text (spaces l.text.length)]
  else [.position l.row l.col, .attr l.attr, .text l.text]

/-- R153: the orders of the band place (slot `k`, row field `j`): the instance, or the erase unit of an empty slot. -/
def bandOrders (v : TemplateVersion) (c : Context) (k j : Nat) : List Order :=
  match c.slotRow k with
  | some p => match v.rowDefs[j]?, c.inst? (.row p j) with
    | some d, some x => fieldOrders ⟨v.group.first + k - 1, d.col⟩ d x
    | _, _ => []
  | none => [.position (v.group.first + k - 1) 1, .eraseToRowEnd]

/-- R153: the orders of a unit, read from the station as it stands. -/
def unitOrders (st : Station) (v : TemplateVersion) (u : PaintUnit) : List Order :=
  match u with
  | .clear => [.clear]
  | .message => [.position 24 1, .attr 0, .text (messageLine st)]
  | .literal i => match v.literals[i]? with
    | some l => literalOrders l
    | none => []
  | .field i => match v.fixed[i]?, st.ctx.bind (fun c => c.inst? (.fixed i)) with
    | some d, some x => fieldOrders ⟨d.row, d.col⟩ d x
    | _, _ => []
  | .band k j => match st.ctx with
    | some c => bandOrders v c k j
    | none => []

/-- R146: the octets of an order. -/
def Order.size (o : Order) : Nat :=
  match o with
  | .clear => 1
  | .position _ _ => 3
  | .attr _ => 2
  | .text t => 2 + t.length
  | .eraseToRowEnd => 1
  | .cursor _ _ => 3
  | .alarm => 1

def ordersSize (l : List Order) : Nat := (l.map Order.size).sum

/-- R152: the first unit at or behind the place where the band begins. -/
def bandStart (v : TemplateVersion) : PaintUnit := if v.group.visible = 0 then .message else .band 1 0

/-- R152: the first unit at or behind fixed field `i`. -/
def fieldFrom (v : TemplateVersion) (i : Nat) : PaintUnit := if i < v.fixed.length then .field i else bandStart v

/-- R152: the first unit at or behind literal run `i`. -/
def literalFrom (v : TemplateVersion) (i : Nat) : PaintUnit := if i < v.literals.length then .literal i else fieldFrom v 0

/-- The band place behind (k, j), absent behind the last one. -/
def nextBandPlace (v : TemplateVersion) (c : Context) (k j : Nat) : Option BandPoint :=
  if (c.slotRow k).isSome && j + 1 < v.rowDefs.length then some ⟨k, j + 1⟩
  else if k < v.group.visible then some ⟨k + 1, 0⟩ else none

/-- R152: the unit that follows a unit in a full repaint; absent behind the message line. A station without a context
has a clearing repaint: CLEAR and the message line. -/
def nextUnit (st : Station) (v : TemplateVersion) (u : PaintUnit) : Option PaintUnit :=
  match st.ctx with
  | none => match u with
    | .message => none
    | _ => some .message
  | some c => match u with
    | .clear => some (literalFrom v 0)
    | .literal i => some (literalFrom v (i + 1))
    | .field i => some (fieldFrom v (i + 1))
    | .band k j => match nextBandPlace v c k j with
      | some b => some (.band b.k b.j)
      | none => some .message
    | .message => none

/-! ### Building a block -/

/-- A block under construction: its orders and the octets left. -/
structure Draft where
  orders : List Order
  room : Nat
  deriving DecidableEq, Repr

/-- Write a unit that fits. -/
def Draft.write (b : Draft) (l : List Order) : Draft := { orders := b.orders ++ l, room := b.room - ordersSize l }

/-- R154 step 2: write units of the full repaint from the resume point, as many as fit whole. Every unit has at least
one octet, so `fuel` above 96 never runs out. -/
def writeRepaint (st : Station) (v : TemplateVersion) : Nat → PaintUnit → Draft → Draft × Option PaintUnit
  | 0, u, b => (b, some u)
  | fuel + 1, u, b =>
    let l := unitOrders st v u
    if ordersSize l ≤ b.room then
      match nextUnit st v u with
      | some u' => writeRepaint st v fuel u' (b.write l)
      | none => (b.write l, none)
    else (b, some u)

/-- R155: the unit at the head of the dirty list, and the list and band resume point once it is written. -/
def headUnit (st : Station) (v : TemplateVersion) (p : Paint) : Option (PaintUnit × Paint) :=
  match p.dirty with
  | [] => none
  | .field i :: rest => some (.field i, { p with dirty := rest })
  | .slot k j :: rest => some (.band k j, { p with dirty := rest })
  | .message :: rest => some (.message, { p with dirty := rest })
  | .band :: rest =>
    let b := p.band.getD ⟨1, 0⟩
    match st.ctx.bind (fun c => nextBandPlace v c b.k b.j) with
    | some b' => some (.band b.k b.j, { p with band := some b' })
    | none => some (.band b.k b.j, { p with dirty := rest, band := none })

/-- R154 step 3: write dirty-list entries from the head, until the list is empty or the next unit does not fit. -/
def writeDirty (st : Station) (v : TemplateVersion) : Nat → Paint → Draft → Draft × Paint
  | 0, p, b => (b, p)
  | fuel + 1, p, b =>
    match headUnit st v p with
    | none => (b, p)
    | some (u, p') =>
      let l := unitOrders st v u
      if ordersSize l ≤ b.room then writeDirty st v fuel p' (b.write l) else (b, p)

/-- R156: close a block with a CURSOR order where one is due and fits. -/
def closeBlock (ctx : Option Context) (p : Paint) (b : Draft) : List Order × Paint :=
  match ctx with
  | some c =>
    if p.cursorPending && 3 ≤ b.room then
      (b.orders ++ [.cursor c.cursor.row c.cursor.col], { p with cursorPending := false })
    else (b.orders, p)
  | none => (b.orders, p)

/-- R154 step 1: a pending ALARM opens the block. -/
def openBlock (p : Paint) : Draft :=
  if p.alarm then { orders := [.alarm], room := Config.blockOctets - 1 } else { orders := [], room := Config.blockOctets }

/-- More turns than the octets of a block. -/
def blockFuel : Nat := Config.blockOctets + 1

/-- R154 to R157: build one block, to be sent with the given number: its orders and the paint state it leaves. -/
def buildBlock (st : Station) (v : TemplateVersion) (number : Fin 8) : List Order × Paint :=
  let b := openBlock st.paint
  let p := { st.paint with alarm := false }
  match p.resume with
  | some u =>
    match writeRepaint st v blockFuel u b with
    | (b, some u') => closeBlock st.ctx { p with resume := some u' } b
    | (b, none) =>
      let p := { p with resume := none, marker := if p.marker = .owed then .carried number else p.marker }
      let (b, p) := writeDirty st v blockFuel p b
      closeBlock st.ctx p b
  | none =>
    let (b, p) := writeDirty st v blockFuel p b
    closeBlock st.ctx p b

end Sys2Proof.Machine
end

