-- ==== Sys2Proof/Machine/Work.lean ====
section
/-! DEFINITION. One act on a station that holds a context: the station, its context, its template version and the row
pool, with the small operations every act is made of. Each operation hands its visible consequences to the Paint
Builder as it makes them (R51, R74, R75, R159). -/

namespace Sys2Proof.Machine

/-- What one act on a station works on. `st.ctx` is stale while the act lasts: the context is `c`. `snapshot` says that
a SNAPSHOT record of the station is waiting or in transmission (R27); `poolLow` that the act has raised POOL LOW (R32);
`latched` the key of an attention the act has latched (R135). -/
structure Work where
  v : TemplateVersion
  st : Station
  c : Context
  freeRows : Nat
  snapshot : Bool
  poolLow : Bool
  latched : Option Byte
  deriving DecidableEq, Repr

/-- Add an entry to the station's dirty list. -/
def Work.dirty (w : Work) (d : Dirty) : Work :=
  { w with st := { w.st with paint := w.st.paint.add true d } }

/-- The indicator as it stands. -/
def Work.indicator (w : Work) : Text := Machine.indicator w.st.state w.st.lock (some w.c)

/-- R159: after a change from `old`, add the MESSAGE entry when the indicator's text has changed. -/
def Work.noteIndicator (old new : Work) : Work :=
  if new.indicator = old.indicator then new else new.dirty .message

/-- Change the station state and the lock together (R24). -/
def Work.setLock (w : Work) (state : StationState) (l : Lock) : Work :=
  w.noteIndicator { w with st := { w.st with state := state, lock := l } }

/-- R64, R51: set or clear the adjusted-notice flag. -/
def Work.setAdjusted (w : Work) (b : Bool) : Work := w.noteIndicator { w with c := { w.c with adjusted := b } }

/-- R68: set the insert mode flag. -/
def Work.setInsertMode (w : Work) (b : Bool) : Work := w.noteIndicator { w with c := { w.c with insertMode := b } }

def Work.setEditing (w : Work) (b : Bool) : Work := { w with c := { w.c with editing := b } }

/-- R51: give the Paint Builder a pending ALARM. -/
def Work.alarm (w : Work) : Work :=
  { w with st := { w.st with paint := { w.st.paint with alarm := true } } }

def Work.markCursor (w : Work) : Work :=
  { w with st := { w.st with paint := { w.st.paint with cursorPending := true } } }

/-- R75: move the cursor; a change of its position sets the cursor-pending flag. -/
def Work.moveCursor (w : Work) (q : Pos) : Work :=
  if q = w.c.cursor then w else Work.markCursor { w with c := { w.c with cursor := q } }

/-- R70: set an operator error: the lock, the indicator and one ALARM. -/
def Work.operatorError (w : Work) (code : ErrorCode) : Work :=
  (w.setLock w.st.state (.operatorError code)).alarm

/-- R51: the dirty entry of an instance: FIELD, or SLOT when its row is shown, or none. -/
def Work.dirtyInst (w : Work) (r : InstRef) : Work :=
  match r with
  | .fixed i => w.dirty (.field i)
  | .row p j => if w.c.inWindow w.v.group p then w.dirty (.slot (p + 1 - w.c.first) j) else w

/-- R108: whether an instance of a definition is painted REVERSE, for its status or in its own attribute. -/
def reversed (d : FieldDef) (x : FieldInst) : Bool := (paintedField d x).1 == 3

/-- R51, R108: whether an instance looks on the screen as another one of its definition: in its text and in REVERSE. -/
def looksSame (d : Option FieldDef) (x x' : FieldInst) : Bool :=
  x.text == x'.text && match d with
    | some d => reversed d x == reversed d x'
    | none => true

/-- Put an instance in place of another; a change of its text, or of whether it is painted REVERSE, adds its dirty
entry (R51, R108). -/
def Work.putInst (w : Work) (r : InstRef) (x' : FieldInst) : Work :=
  match w.c.inst? r with
  | some x =>
    let w' : Work := { w with c := w.c.modInst r (fun _ => x') }
    if looksSame (w.v.defOf r) x x' then w' else w'.dirtyInst r
  | none => w

/-- R74: set the window first row; a change adds the BAND entry. -/
def Work.setFirst (w : Work) (f : Nat) : Work :=
  if f = w.c.first then w else Work.dirty { w with c := { w.c with first := f } } .band

/-- R50: what the cursor is in. -/
def Work.under (w : Work) : Option Under := Machine.under w.v w.c

/-- The number of rows of the row list. -/
def Work.rowCount (w : Work) : Nat := w.c.rows.length

/-- R32: whether a take from a pool of `free` records to `free - k` falls through the boundary of POOL LOW. -/
def poolFalls (free k : Nat) : Bool := Config.poolLowMark < free && free - k ≤ Config.poolLowMark

/-- R31: take one row record from the pool. -/
def Work.takeRow (w : Work) : Work :=
  { w with freeRows := w.freeRows - 1, poolLow := w.poolLow || poolFalls w.freeRows 1 }

/-- R31: return one row record to the pool. -/
def Work.returnRow (w : Work) : Work := { w with freeRows := w.freeRows + 1 }

/-- R88, R119: put a row at position `p`, from 1; the rows behind it move down one. -/
def Work.insertRowAt (w : Work) (p : Nat) (x : RowRec) : Work :=
  { w with c := { w.c with rows := w.c.rows.take (p - 1) ++ x :: w.c.rows.drop (p - 1) } }

/-- R90, R120: remove the row at position `p`; the rows behind it move up one. -/
def Work.removeRowAt (w : Work) (p : Nat) : Work :=
  { w with c := { w.c with rows := w.c.rows.take (p - 1) ++ w.c.rows.drop p } }

end Sys2Proof.Machine
end

