-- ==== Sys2Proof/Machine/Tally.lean ====
section
/-! DEFINITION. The Tally Unit (05): the accumulator and its limit (R97), PRODUCT (R98, R99) and SUM (R100, R101), the
fit of a result to its field (R102 to R106) and the occasions of computation (R94, R95). -/

namespace Sys2Proof.Machine

/-! ### Exact arithmetic -/

/-- Division by a positive number, rounded half away from zero (00_scope §4 "Numeric values"). -/
def divRound (x : Int) (d : Nat) : Int :=
  let q : Int := ((2 * x.natAbs + d) / (2 * d) : Nat)
  if x < 0 then -q else q

/-- R97: the accumulator of one computation: its value at scale 4, its excursion count, and whether an excursion has
been noted. -/
structure Accumulator where
  value : Int
  excursion : Int
  noted : Bool
  deriving DecidableEq, Repr

/-- R97: the accumulator at the start of every computation. -/
def Accumulator.start : Accumulator := { value := 0, excursion := 0, noted := false }

/-- R97: take the exact result of an operation, under the accumulator limit. -/
def Accumulator.take (a : Accumulator) (exact : Int) : Accumulator :=
  if exact > Config.accumulatorLimit then
    { value := Config.accumulatorLimit, excursion := a.excursion + 1, noted := true }
  else if exact < -Config.accumulatorLimit then
    { value := -Config.accumulatorLimit, excursion := a.excursion - 1, noted := true }
  else { a with value := exact }

/-- R99: the exact product of two mantissas brought to scale 4. -/
def rescaleProduct (p : Int) (scale : Nat) : Int :=
  if scale > 4 then divRound p (10 ^ (scale - 4)) else p * (10 ^ (4 - scale) : Nat)

/-- R98, R99: the accumulator of a PRODUCT; absent when an operand is. -/
def productAccumulator (sa sb : Nat) (ma mb : Option Int) : Option Accumulator :=
  match ma, mb with
  | some a, some b => some (Accumulator.start.take (rescaleProduct (a * b) (sa + sb)))
  | _, _ => none

/-- R100: the accumulator of a SUM over the committed values of its source, in list order, an absent one counting 0. -/
def sumAccumulator (scale : Nat) (values : List (Option Int)) : Accumulator :=
  values.foldl (fun a x => a.take (a.value + (x.getD 0) * (10 ^ (4 - scale) : Nat))) Accumulator.start

/-- R102: the candidate mantissa of a field of scale `s`. -/
def candidate (s : Nat) (v : Int) : Int := divRound v (10 ^ (4 - s))

/-- R103: whether a result is out of range for its field. -/
def outOfRange (f : NumForm) (a : Accumulator) : Bool :=
  let q := candidate f.scale a.value
  a.noted || q.natAbs > f.limit || (q < 0 && !f.signed)

/-- R105: the limit of a field in the direction of the accumulator's sign. -/
def saturationValue (f : NumForm) (v : Int) : Int :=
  if v > 0 then (f.limit : Int) else if v < 0 then (if f.signed then -(f.limit : Int) else 0) else 0

/-- R104 to R106: fit a result to the instance that shows it; `overflow` 0 is SATURATE, 1 is HOLD. -/
def fitResult (f : NumForm) (overflow : Nat) (a : Accumulator) (x : FieldInst) : FieldInst :=
  if outOfRange f a then
    if overflow = 0 then
      { x with text := displayForm f (some (saturationValue f a.value)), value := some (saturationValue f a.value)
               status := .saturated, excursion := a.excursion }
    else { x with status := .held, excursion := a.excursion }
  else
    { x with text := displayForm f (some (candidate f.scale a.value)), value := some (candidate f.scale a.value)
             status := .valid, excursion := 0 }

/-- R98: the instance of an absent PRODUCT. -/
def absentResult (f : NumForm) (x : FieldInst) : FieldInst :=
  { x with text := spaces f.width, value := none, status := .valid, excursion := 0 }

/-! ### Computing instances -/

/-- The index of the row field definition with an id. -/
def rowIndex (v : TemplateVersion) (id : Nat) : Option Nat := v.rowDefs.findIdx? (fun d => d.id == id)

/-- The committed value of the row field with an id, in the row at position `p`. -/
def rowValue (v : TemplateVersion) (c : Context) (p id : Nat) : Option Int :=
  (rowIndex v id).bind fun j => (c.inst? (.row p j)).bind FieldInst.value

/-- The scale of the row field with an id. -/
def rowScale (v : TemplateVersion) (id : Nat) : Nat :=
  match (rowIndex v id).bind (fun j => v.rowDefs[j]?) with
  | some d => (numForm d).scale
  | none => 0

/-- R98 to R106: the instance of a derived field as a computation leaves it; another kind is left alone. -/
def computed (v : TemplateVersion) (c : Context) (p : Nat) (d : FieldDef) (x : FieldInst) : FieldInst :=
  match d.kind with
  | .product _ a b part =>
    match productAccumulator (rowScale v a) (rowScale v b) (rowValue v c p a) (rowValue v c p b) with
    | some acc => fitResult (numForm d) part.overflow acc x
    | none => absentResult (numForm d) x
  | .sum _ source part =>
    fitResult (numForm d) part.overflow
      (sumAccumulator (rowScale v source)
        ((List.range c.rows.length).map (fun k => rowValue v c (k + 1) source))) x
  | _ => x

/-- Compute one derived instance afresh (R94), with its dirty entry where R108 gives one. -/
def Work.compute (w : Work) (r : InstRef) : Work :=
  match w.v.defOf r, w.c.inst? r with
  | some d, some x =>
    let p := match r with
      | .fixed _ => 0
      | .row p _ => p
    w.putInst r (computed w.v w.c p d x)
  | _, _ => w

/-- Whether a definition is a PRODUCT of one of the fields with the given ids. -/
def isProductOf (ids : List Nat) (d : FieldDef) : Bool :=
  match d.kind with
  | .product _ a b _ => ids.contains a || ids.contains b
  | _ => false

/-- Whether a definition is a PRODUCT. -/
def isProduct (d : FieldDef) : Bool :=
  match d.kind with
  | .product _ _ _ _ => true
  | _ => false

/-- Whether a definition is a SUM with one of the given source ids. -/
def isSumOf (ids : List Nat) (d : FieldDef) : Bool :=
  match d.kind with
  | .sum _ source _ => ids.contains source
  | _ => false

/-- Whether a definition is a SUM. -/
def isSum (d : FieldDef) : Bool :=
  match d.kind with
  | .sum _ _ _ => true
  | _ => false

/-- The indices of the definitions of a list that a test picks. -/
def pick (l : List FieldDef) (test : FieldDef → Bool) : List Nat :=
  (List.range l.length).filter (fun i => match l[i]? with
    | some d => test d
    | none => false)

/-- The id of row field definition `j`. -/
def rowFieldId (v : TemplateVersion) (j : Nat) : Nat :=
  match v.rowDefs[j]? with
  | some d => d.id
  | none => 0

/-- R94: compute a PRODUCT instance; its field id joins the list when its committed value changed. -/
def Work.computeProduct (s : Work × List Nat) (r : Nat × Nat) : Work × List Nat :=
  let w' := s.1.compute (.row r.1 r.2)
  let before := (s.1.c.inst? (.row r.1 r.2)).bind FieldInst.value
  let after := (w'.c.inst? (.row r.1 r.2)).bind FieldInst.value
  (w', if before = after then s.2 else s.2 ++ [rowFieldId w'.v r.2])

/-- R94, R95: compute the PRODUCT instances that changes of committed values call for. `changed` names each changed
NUMERIC row instance by row position and definition index, rows in list order. Answers the ids of the fields whose
committed value has changed, the changed operands' own first. -/
def Work.computeProductsOf (w : Work) (changed : List (Nat × Nat)) : Work × List Nat :=
  let ids (p : Nat) := (changed.filter (fun r => r.1 == p)).map (fun r => rowFieldId w.v r.2)
  let targets := (List.range w.c.rows.length).flatMap (fun k =>
    (pick w.v.rowDefs (isProductOf (ids (k + 1)))).map (fun j => (k + 1, j)))
  targets.foldl Work.computeProduct (w, changed.map (fun r => rowFieldId w.v r.2))

/-- R94: compute each SUM whose source is among the given ids. -/
def Work.computeSumsOf (w : Work) (ids : List Nat) : Work :=
  (pick w.v.fixed (isSumOf ids)).foldl (fun w i => w.compute (.fixed i)) w

/-- R94: compute every SUM instance. -/
def Work.computeAllSums (w : Work) : Work :=
  (pick w.v.fixed isSum).foldl (fun w i => w.compute (.fixed i)) w

/-- R94: compute every PRODUCT instance of the row at position `p`. -/
def Work.computeRow (w : Work) (p : Nat) : Work :=
  (pick w.v.rowDefs isProduct).foldl (fun w j => w.compute (.row p j)) w

/-- R94: what a change of the committed values of NUMERIC row instances calls for. -/
def Work.tally (w : Work) (changed : List (Nat × Nat)) : Work :=
  let (w, ids) := w.computeProductsOf changed
  w.computeSumsOf ids

/-- R41, R94: compute every derived instance, every PRODUCT row by row and then every SUM. -/
def Work.tallyAll (w : Work) : Work :=
  ((List.range w.c.rows.length).foldl (fun w k => w.computeRow (k + 1)) w).computeAllSums

end Sys2Proof.Machine
end

