-- ==== Sys2Proof/Machine/Editor.lean ====
section
/-! DEFINITION. The Field Editor (03, 04) and the attention keys (07): data keys, erasing, the field exit check, cursor
keys, rolls, item lines, the latch; then the opening of the keyboard and the draining of the type-ahead queue (R37). -/

namespace Sys2Proof.Machine

/-! ### Keys (11.3) -/

/-- The keys of the code table; an attention key keeps its code. -/
inductive Key where
  | data (c : Byte)
  | attention (code : Byte)
  | tab | backtab | home | newline | up | down | left | right
  | rollUp | rollDown | rowInsert | rowDelete
  | delete | eraseEof | eraseInput | fieldExit | fieldMinus | dup | insert | reset
  deriving DecidableEq, Repr

/-- R132: ENTER, CLEAR and F1 to F12: 80h to 8Dh. -/
def isAttentionKey (k : Byte) : Bool := 0x80 ≤ k.toNat && k.toNat ≤ 0x8D

def clearKey : Byte := 0x81

def resetKey : Byte := 0xA7

/-- The key a code names; a code that names no key has no effect (R49). -/
def decodeKey (k : Byte) : Option Key :=
  if isComposerChar k then some (.data k)
  else if isAttentionKey k then some (.attention k)
  else match k.toNat with
    | 0x90 => some .tab
    | 0x91 => some .backtab
    | 0x92 => some .home
    | 0x93 => some .newline
    | 0x94 => some .up
    | 0x95 => some .down
    | 0x96 => some .left
    | 0x97 => some .right
    | 0x98 => some .rollUp
    | 0x99 => some .rollDown
    | 0x9A => some .rowInsert
    | 0x9B => some .rowDelete
    | 0xA0 => some .delete
    | 0xA1 => some .eraseEof
    | 0xA2 => some .eraseInput
    | 0xA3 => some .fieldExit
    | 0xA4 => some .fieldMinus
    | 0xA5 => some .dup
    | 0xA6 => some .insert
    | 0xA7 => some .reset
    | _ => none

/-! ### The field exit check (R59 to R64) -/

/-- What a passing exit check decides to write. -/
structure Checked where
  text : Text
  value : Option Int
  adjusted : Bool
  deriving DecidableEq, Repr

/-- R62 step 2: a present value against the limits: the value and whether it was adjusted, or RANGE. -/
def applyLimits (part : NumericPart) (policy : Nat) (m : Int) : Except ErrorCode (Int × Bool) :=
  let below := match part.min with
    | some lo => decide (m < lo)
    | none => false
  let above := match part.max with
    | some hi => decide (hi < m)
    | none => false
  if !below && !above then .ok (m, false)
  else if policy = 0 then .ok (if below then part.min.getD m else part.max.getD m, true)
  else .error .range

/-- R62: MANDATORY FILL: a modified field may hold no space. -/
def fillCheck (d : FieldDef) (x : FieldInst) (r : Checked) : Except ErrorCode Checked :=
  if d.mandatoryFill && x.modified && r.text.contains space then .error .mandatory else .ok r

/-- R62, R66: the exit check of an instance; with `negate`, FIELD MINUS. -/
def exitCheck (d : FieldDef) (x : FieldInst) (negate : Bool) : Except ErrorCode Checked :=
  match d.kind with
  | .numeric part policy =>
    match parseEntry (numForm d) x.text with
    | none => .error .numeric
    | some none => fillCheck d x { text := displayForm (numForm d) none, value := none, adjusted := false }
    | some (some m) =>
      match applyLimits part policy (if negate then -m else m) with
      | .error e => .error e
      | .ok (m', adjusted) =>
        fillCheck d x { text := displayForm (numForm d) (some m'), value := some m', adjusted := adjusted }
  | _ => fillCheck d x { text := x.text, value := x.value, adjusted := false }

/-- R63: the outcome of a field exit. A passed exit names the NUMERIC row instance whose committed value it changed, for
the Tally Unit; a failed one has put the cursor at the field start and set the operator error. -/
inductive ExitOutcome where
  | passed (w : Work) (changed : List (Nat × Nat))
  | failed (w : Work)
  deriving DecidableEq, Repr

/-- The list of the one row instance a reference names; a fixed instance calls for no computation (R94). -/
def changedRow (r : InstRef) : List (Nat × Nat) :=
  match r with
  | .fixed _ => []
  | .row p j => [(p, j)]

/-- R59, R63, R64: the field exit of the instance the cursor is in. -/
def Work.exitField (w : Work) (negate : Bool) : ExitOutcome :=
  match w.under with
  | none => .passed w []
  | some u =>
    if !w.c.editing then .passed w []
    else match exitCheck u.field u.inst negate with
      | .error code => .failed ((w.moveCursor (fieldStart w.v w.c u.ref)).operatorError code)
      | .ok r =>
        let w := (w.putInst u.ref { u.inst with text := r.text, value := r.value }).setEditing false
        let w := if r.adjusted then w.setAdjusted true else w
        .passed w (if r.value = u.inst.value then [] else changedRow u.ref)

/-- R77: the exit, where one is performed, and the roll and move decided before it. `earlier` names an instance whose
committed value the key itself has changed already (R67); each derived instance is computed once (R95). -/
def Work.exitThenMove (w : Work) (performExit negate : Bool) (earlier : List (Nat × Nat)) (first : Nat)
    (target : Pos) : Work :=
  match (if performExit then w.exitField negate else .passed w []) with
  | .failed w => w.tally earlier
  | .passed w changed =>
    ((w.tally (if earlier.isEmpty then changed else earlier)).setFirst first).moveCursor target

/-! ### Cursor keys (R77 to R84) -/

/-- R79, R83: whether rows lie below the window, the version has an open row field and the cursor is on the screen row
of slot V. -/
def Work.atFoot (w : Work) : Bool :=
  (firstOpenCol w.v).isSome && w.c.first + w.v.group.visible ≤ w.rowCount
    && w.c.cursor.row + 1 == w.v.group.first + w.v.group.visible

/-- R79: the start of the first open row field in slot V. -/
def Work.footTarget (w : Work) : Pos :=
  ⟨w.v.group.first + w.v.group.visible - 1, (firstOpenCol w.v).getD 1⟩

/-- R78, R79: the roll and target of TAB. -/
def Work.tabDecision (w : Work) : Nat × Pos :=
  if w.atFoot && (lastOpenCol w.v).getD 81 ≤ w.c.cursor.col then (w.c.first + 1, w.footTarget)
  else (w.c.first, nextTab w.v w.c w.c.cursor)

/-- R83: the roll and target of NEWLINE. -/
def Work.newlineDecision (w : Work) : Nat × Pos :=
  if w.atFoot then (w.c.first + 1, w.footTarget) else (w.c.first, nextRowTab w.v w.c w.c.cursor)

/-- R81: whether BACKTAB rolls the window back. -/
def Work.atHead (w : Work) : Bool :=
  w.c.first > 1 && w.c.cursor.row == w.v.group.first
    && (match firstOpenCol w.v with
      | some col => w.c.cursor.col ≤ col
      | none => false)

/-- R80 case 1: the start of the tab-set field the cursor is in behind its first position. -/
def Work.ownStart (w : Work) : Option Pos :=
  match w.under with
  | some u =>
    if !u.field.prot && u.field.col < w.c.cursor.col then some (fieldStart w.v w.c u.ref) else none
  | none => none

/-- R80, R81: the roll and target of BACKTAB. -/
def Work.backtabDecision (w : Work) : Nat × Pos :=
  match w.ownStart with
  | some q => (w.c.first, q)
  | none =>
    if w.atHead then (w.c.first - 1, ⟨w.v.group.first, (lastOpenCol w.v).getD 1⟩)
    else (w.c.first, previousTab w.v w.c w.c.cursor)

/-- R78, R85: TAB, and the keys that exit as TAB. -/
def Work.moveAsTab (w : Work) (negate : Bool) (earlier : List (Nat × Nat)) : Work :=
  w.exitThenMove true negate earlier w.tabDecision.1 w.tabDecision.2

/-- R84: an arrow key; the exit is performed when the target lies outside the instance the cursor is in. -/
def Work.arrow (w : Work) (target : Pos) : Work :=
  w.exitThenMove (instAt w.v w.c target != instAt w.v w.c w.c.cursor) false [] w.c.first target

/-! ### Data keys and erasing (R52 to R58) -/

/-- R53, R56: write a text in the instance under the cursor, setting its modified flag and the editing flag. -/
def Work.editText (w : Work) (u : Under) (t : Text) : Work :=
  (w.putInst u.ref { u.inst with text := t, modified := true }).setEditing true

/-- R50: the field position of the cursor, from 0. -/
def Under.offset (u : Under) (c : Context) : Nat := c.cursor.col - u.field.col

/-- R55: the position after a field that ends where the cursor is. -/
def afterField (q : Pos) : Pos := q.succ

/-- R55: the advance after a data key was written in `d`. -/
def Work.advance (w : Work) (d : FieldDef) : Work :=
  if w.c.cursor.col + 1 < d.col + d.width then w.moveCursor ⟨w.c.cursor.row, w.c.cursor.col + 1⟩
  else if d.autoSkip then w.moveAsTab false []
  else w.exitThenMove true false [] w.c.first (afterField w.c.cursor)

/-- R52 check 2: the code that refuses a character of the wrong class. -/
def classError (d : FieldDef) : ErrorCode :=
  match d.kind with
  | .alpha => .letters
  | _ => .numeric

/-- R53, R54: the text after a data key at offset `o`. -/
def typedText (insertMode : Bool) (t : Text) (o : Nat) (ch : Byte) : Text :=
  if insertMode then t.take o ++ ch :: (t.drop o).dropLast else t.set o ch

/-- R52 to R55: a data key. -/
def Work.dataKey (w : Work) (ch : Byte) : Work :=
  match w.under with
  | none => w.operatorError .isProtected
  | some u =>
    if u.field.prot then w.operatorError .isProtected
    else if !acceptsKey u.field.kind ch then w.operatorError (classError u.field)
    else if w.c.insertMode && u.inst.text.getLast? != some space then w.operatorError .full
    else (w.editText u (typedText w.c.insertMode u.inst.text (u.offset w.c) ch)).advance u.field

/-- The unprotected instance under the cursor. -/
def Work.openUnder (w : Work) : Option Under :=
  match w.under with
  | some u => if u.field.prot then none else some u
  | none => none

/-- R56: DELETE. -/
def Work.deleteKey (w : Work) : Work :=
  match w.openUnder with
  | none => w.operatorError .isProtected
  | some u =>
    let o := u.offset w.c
    w.editText u (u.inst.text.take o ++ u.inst.text.drop (o + 1) ++ [space])

/-- R57: a text blank from offset `o` on. -/
def blankFrom (t : Text) (o : Nat) : Text := t.take o ++ spaces (t.length - o)

/-- R57: ERASE EOF. -/
def Work.eraseEofKey (w : Work) : Work :=
  match w.openUnder with
  | none => w.operatorError .isProtected
  | some u => w.editText u (blankFrom u.inst.text (u.offset w.c))

/-- The instances of a context in the order of R134: fixed ones, then each row's, rows in list order. -/
def allRefs (v : TemplateVersion) (c : Context) : List InstRef :=
  (List.range v.fixed.length).map .fixed
    ++ (List.range c.rows.length).flatMap (fun k => (List.range v.rowDefs.length).map (fun j => .row (k + 1) j))

/-- R58: an UNPROTECTED instance as ERASE INPUT leaves it. -/
def erasedInst (d : FieldDef) (x : FieldInst) : FieldInst :=
  let text := spaces d.width
  let value := if isNumeric d then none else x.value
  { x with text := text, value := value, modified := x.modified || text != x.text || value != x.value }

/-- R58: erase one instance; a NUMERIC row instance whose committed value changed joins the list. -/
def Work.eraseInst (s : Work × List (Nat × Nat)) (r : InstRef) : Work × List (Nat × Nat) :=
  match s.1.v.defOf r, s.1.c.inst? r with
  | some d, some x =>
    if d.prot then s
    else (s.1.putInst r (erasedInst d x), if (erasedInst d x).value = x.value then s.2 else s.2 ++ changedRow r)
  | _, _ => s

/-- R58: ERASE INPUT. -/
def Work.eraseInputKey (w : Work) : Work :=
  let (w, changed) := (allRefs w.v w.c).foldl Work.eraseInst (w, [])
  let w := w.setEditing false
  (w.moveCursor (homePos w.v w.c)).tally changed

/-! ### Keys that exit the field (R65 to R67) -/

/-- R65: FIELD EXIT. -/
def Work.fieldExitKey (w : Work) : Work :=
  match w.openUnder with
  | none => w.operatorError .isProtected
  | some u => (w.editText u (blankFrom u.inst.text (u.offset w.c))).moveAsTab false []

/-- R66: FIELD MINUS. -/
def Work.fieldMinusKey (w : Work) : Work :=
  match w.openUnder with
  | none => w.operatorError .numeric
  | some u =>
    if isNumeric u.field && (numForm u.field).signed then
      (w.editText u (blankFrom u.inst.text (u.offset w.c))).moveAsTab true []
    else w.operatorError .numeric

/-- R67: the instance DUP copies from. -/
def dupSource (c : Context) (r : InstRef) : Option FieldInst :=
  match r with
  | .fixed _ => none
  | .row p j => if 1 < p then c.inst? (.row (p - 1) j) else none

/-- R67: DUP. -/
def Work.dupKey (w : Work) : Work :=
  match w.openUnder with
  | none => w.alarm
  | some u =>
    match dupSource w.c u.ref with
    | none => w.alarm
    | some src =>
      let value := if isNumeric u.field then src.value else u.inst.value
      let w := (w.putInst u.ref { u.inst with text := src.text, value := value, modified := true }).setEditing true
      w.moveAsTab false (if value = u.inst.value then [] else changedRow u.ref)

/-! ### Rolls (R86) -/

/-- R86: ROLL UP and ROLL DOWN to a window first row. -/
def Work.rollTo (w : Work) (f : Nat) : Work :=
  if w.v.group.visible = 0 then w
  else w.exitThenMove (isBandRow w.v.group w.c.cursor.row) false []
    (clampFirst w.v.group w.rowCount f) w.c.cursor

/-- R86: the step of a roll. -/
def rollStep (g : Group) : Nat := max 1 (g.visible - 1)

/-! ### Item lines (R87 to R91) -/

/-- The band slot of the cursor. -/
def Work.cursorSlot (w : Work) : Nat := w.c.cursor.row + 1 - w.v.group.first

/-- R88: the start of the first open row field, or of the first row field, in the slot that shows row `p`. -/
def Work.newRowStart (w : Work) (p : Nat) : Pos :=
  let col := match firstOpenCol w.v with
    | some col => col
    | none => (w.v.rowDefs.head?.map FieldDef.col).getD 1
  ⟨w.v.group.first + p - w.c.first, col⟩

/-- R88: the place, after a row went in at position `p`, of a row instance named by its row position. -/
def behindInsert (p : Nat) (r : Nat × Nat) : Nat × Nat := if p ≤ r.1 then (r.1 + 1, r.2) else r

/-- R88: insert the operator's row, after the checks and the exit of R87. `changed` is what the exit changed. The Tally
Unit computes once the row is in (R95): the PRODUCT instances of the new row, those the exit calls for where they now
stand, and then every SUM. -/
def Work.insertOperatorRow (w : Work) (changed : List (Nat × Nat)) : Work :=
  let p := match w.c.slotRow w.cursorSlot with
    | some p => p
    | none => w.rowCount + 1
  let w := w.takeRow.insertRowAt p (initialRow w.v.rowDefs none true)
  let w := w.moveCursor (w.newRowStart p)
  let w := ((w.computeRow p).computeProductsOf (changed.map (behindInsert p))).1
  (w.computeAllSums.dirty .band).markCursor

/-- R87: ROW INSERT. -/
def Work.rowInsertKey (w : Work) : Work :=
  if !w.v.group.insertAllowed || !isBandRow w.v.group w.c.cursor.row then w.operatorError .isProtected
  else if w.v.group.maxRows ≤ w.rowCount then w.operatorError .noRoom
  else if w.freeRows = 0 then w.operatorError .noRoom
  else match w.exitField false with
    | .failed w => w
    | .passed w changed => w.insertOperatorRow changed

/-- R91: the deleted-tag list with the tag of a deleted row. -/
def addDeletedTag (tags : List Nat) (tag : Option Nat) : List Nat :=
  match tag with
  | none => tags
  | some t => if tags.contains t then tags else tags ++ [t]

/-- R89: whether the deleted-tag list has no room for the tag of a row: an untagged row, or one whose tag the list
already holds, always passes. -/
def deletedTagBlocked (tags : List Nat) (tag : Option Nat) : Bool :=
  match tag with
  | none => false
  | some t => !tags.contains t && Config.deletedTags ≤ tags.length

/-- R90: delete the row at position `p`, after the checks of R89. -/
def Work.deleteOperatorRow (w : Work) (p : Nat) (x : RowRec) : Work :=
  let inRow := (instAt w.v w.c w.c.cursor).isSome
  let w : Work := { w with c := { w.c with deletedTags := addDeletedTag w.c.deletedTags x.tag } }
  let w := (w.removeRowAt p).returnRow
  let w := if inRow then w.setEditing false else w
  let w : Work := { w with c := { w.c with first := clampFirst w.v.group w.rowCount w.c.first } }
  w.computeAllSums.dirty .band

/-- R89: ROW DELETE. -/
def Work.rowDeleteKey (w : Work) : Work :=
  if !w.v.group.deleteAllowed || !isBandRow w.v.group w.c.cursor.row then w.operatorError .isProtected
  else match w.c.slotRow w.cursorSlot with
    | none => w.operatorError .isProtected
    | some p =>
      match w.c.row? p with
      | none => w.operatorError .isProtected
      | some x =>
        if deletedTagBlocked w.c.deletedTags x.tag then w.operatorError .noRoom
        else w.deleteOperatorRow p x

/-! ### Attention keys (R133 to R136) -/

/-- R134: whether an instance is mandatory and unentered. -/
def isUnentered (v : TemplateVersion) (c : Context) (r : InstRef) : Bool :=
  match v.defOf r, c.inst? r with
  | some d, some x => d.mandatoryEntry && !x.modified
  | _, _ => false

/-- R134: bring the row of an instance into the window. -/
def Work.showRow (w : Work) (r : InstRef) : Work :=
  match r with
  | .fixed _ => w
  | .row p _ => if w.c.inWindow w.v.group p then w else w.setFirst (clampFirst w.v.group w.rowCount p)

/-- R135: latch the attention. -/
def Work.latch (w : Work) (key : Byte) : Work :=
  { w.setLock .attention .system with latched := some key }

/-- R133, R134: ENTER and the F keys. -/
def Work.reportKey (w : Work) (key : Byte) : Work :=
  match w.exitField false with
  | .failed w => w
  | .passed w changed =>
    let w := w.tally changed
    match (allRefs w.v w.c).find? (isUnentered w.v w.c) with
    | some r =>
      let w := w.showRow r
      (w.moveCursor (fieldStart w.v w.c r)).operatorError .mandatory
    | none => w.latch key

/-! ### Applying a keystroke (R49) -/

/-- R49, R51: apply a key in ENTRY with lock NONE. -/
def Work.applyDecoded (w : Work) (key : Key) : Work :=
  match key with
  | .data ch => w.dataKey ch
  | .attention code => if code = clearKey then w.latch code else w.reportKey code
  | .tab => w.moveAsTab false []
  | .backtab => w.exitThenMove true false [] w.backtabDecision.1 w.backtabDecision.2
  | .home => w.exitThenMove true false [] w.c.first (homePos w.v w.c)
  | .newline => w.exitThenMove true false [] w.newlineDecision.1 w.newlineDecision.2
  | .up => w.arrow w.c.cursor.up
  | .down => w.arrow w.c.cursor.down
  | .left => w.arrow w.c.cursor.pred
  | .right => w.arrow w.c.cursor.succ
  | .rollUp => w.rollTo (w.c.first + rollStep w.v.group)
  | .rollDown => w.rollTo (w.c.first - rollStep w.v.group)
  | .rowInsert => w.rowInsertKey
  | .rowDelete => w.rowDeleteKey
  | .delete => w.deleteKey
  | .eraseEof => w.eraseEofKey
  | .eraseInput => w.eraseInputKey
  | .fieldExit => w.fieldExitKey
  | .fieldMinus => w.fieldMinusKey
  | .dup => w.dupKey
  | .insert => w.setInsertMode (!w.c.insertMode)
  | .reset => w.setInsertMode false

/-- R49, R51: apply a keystroke code; a code of no key has no effect, every key first clears the adjusted notice. -/
def Work.applyKey (w : Work) (k : Byte) : Work :=
  match decodeKey k with
  | none => w
  | some key => (w.setAdjusted false).applyDecoded key

/-! ### Opening the keyboard (R27, R37) -/

def Work.setTypeAhead (w : Work) (keys : List Byte) : Work := { w with st := { w.st with typeAhead := keys } }

/-- R37 steps 2 and 3: drain keystrokes from the head while the lock stays NONE. -/
def Work.drain (w : Work) : List Byte → Work
  | [] => w.setTypeAhead []
  | k :: rest =>
    let w := (w.setTypeAhead rest).applyKey k
    match w.st.lock with
    | .none => w.drain rest
    | .operatorError _ => w.setTypeAhead []
    | .system => w
    | .snapshot => w

/-- R37: the lock of a station in ENTRY has become NONE. -/
def Work.dealWithTypeAhead (w : Work) : Work :=
  if w.st.overrun then
    Work.operatorError { w with st := { w.st with typeAhead := [], overrun := false } } .overrun
  else w.drain w.st.typeAhead

/-- R27, R37: open the keyboard in ENTRY: the lock becomes NONE and the type-ahead queue is dealt with, or SNAPSHOT
while a SNAPSHOT record of the station stands. -/
def Work.openKeyboard (w : Work) : Work :=
  if w.snapshot then w.setLock .entry .snapshot else (w.setLock .entry .none).dealWithTypeAhead

/-- R69: RESET under an OPERATOR ERROR lock. -/
def Work.resetError (w : Work) : Work := (w.setAdjusted false).openKeyboard

end Sys2Proof.Machine
end

