-- ==== Sys2Proof/Machine/Flags.lean ====
section
/-! DEFINITION. Flags of the Control Unit: the raw event set, the enable set, the reported set and the event slot
(R184, R191 to R193). -/

namespace Sys2Proof.Machine

/-- R191, 11.3: the event kinds, in the order of their mask bits. -/
inductive EventKind where
  | started
  | stationOffline
  | stationOnline
  | lineCheck
  | typeAheadOverrun
  | loopHoldOn
  | loopHoldOff
  | poolLow
  | templateFreed
  deriving DecidableEq, Repr

/-- R196: the mask bit of an event kind. -/
def EventKind.bit (k : EventKind) : Nat :=
  match k with
  | .started => 0
  | .stationOffline => 1
  | .stationOnline => 2
  | .lineCheck => 3
  | .typeAheadOverrun => 4
  | .loopHoldOn => 5
  | .loopHoldOff => 6
  | .poolLow => 7
  | .templateFreed => 8

/-- The mask with one bit set. -/
def bitMask (n : Nat) : Mask := 1#16 <<< n

/-- R196: the mask bits that name a kind. -/
def kindBits : Mask := 0x01FF#16

/-- R191: the mask bits of the non-station kinds. -/
def plainBits : Mask := 0x01E1#16

/-- R191: an event a block raises: a non-station kind, or a station kind with its station. -/
inductive Event where
  | started
  | loopHoldOn
  | loopHoldOff
  | poolLow
  | templateFreed
  | stationOffline (i : StationId)
  | stationOnline (i : StationId)
  | lineCheck (i : StationId)
  | typeAheadOverrun (i : StationId)
  deriving DecidableEq, Repr

def Event.kind (e : Event) : EventKind :=
  match e with
  | .started => .started
  | .loopHoldOn => .loopHoldOn
  | .loopHoldOff => .loopHoldOff
  | .poolLow => .poolLow
  | .templateFreed => .templateFreed
  | .stationOffline _ => .stationOffline
  | .stationOnline _ => .stationOnline
  | .lineCheck _ => .lineCheck
  | .typeAheadOverrun _ => .typeAheadOverrun

/-- R191: the raw set with an event in it. -/
def RawEvents.raise (r : RawEvents) (e : Event) : RawEvents :=
  match e with
  | .stationOffline i => { r with offline := r.offline ||| bitMask i.val }
  | .stationOnline i => { r with online := r.online ||| bitMask i.val }
  | .lineCheck i => { r with lineCheck := r.lineCheck ||| bitMask i.val }
  | .typeAheadOverrun i => { r with overrun := r.overrun ||| bitMask i.val }
  | .started => { r with flags := r.flags ||| bitMask 0 }
  | .loopHoldOn => { r with flags := r.flags ||| bitMask 5 }
  | .loopHoldOff => { r with flags := r.flags ||| bitMask 6 }
  | .poolLow => { r with flags := r.flags ||| bitMask 7 }
  | .templateFreed => { r with flags := r.flags ||| bitMask 8 }

/-- A mask where a kind is enabled, else the empty one. -/
def ifEnabled (enable : Mask) (k : EventKind) (m : Mask) : Mask := if enable.getLsbD k.bit then m else 0

/-- R192: the reported set: the raw set restricted to the enabled kinds. -/
def reported (raw : RawEvents) (enable : Mask) : RawEvents :=
  { flags := raw.flags &&& enable
    offline := ifEnabled enable .stationOffline raw.offline
    online := ifEnabled enable .stationOnline raw.online
    lineCheck := ifEnabled enable .lineCheck raw.lineCheck
    overrun := ifEnabled enable .typeAheadOverrun raw.overrun }

/-- Whether a mask has a bit that another lacks. -/
def gainsBit (old new : Mask) : Bool := new &&& ~~~old != 0

/-- R192: whether a reported set has a member that another lacks. -/
def gainsMember (old new : RawEvents) : Bool :=
  gainsBit old.flags new.flags || gainsBit old.offline new.offline || gainsBit old.online new.online
    || gainsBit old.lineCheck new.lineCheck || gainsBit old.overrun new.overrun

/-- R192: the event slot is dealt with when the reported set gains a member. -/
def State.placeNotice (s : State) : State :=
  match s.event with
  | .empty => { s with event := .waiting, waiting := s.waiting ++ [.event] }
  | .waiting => s
  | .sending => { s with event := .sendingOwed }
  | .sendingOwed => s

/-- R191, R192: change the raw set and the enable set in one act; a gain of the reported set deals with the event
slot. -/
def State.updateEvents (s : State) (raw : RawEvents) (enable : Mask) : State :=
  let s' : State := { s with raw := raw, enable := enable }
  if gainsMember (reported s.raw s.enable) (reported raw enable) then s'.placeNotice else s'

/-- R191: raise an event. -/
def State.raise (s : State) (e : Event) : State := s.updateEvents (s.raw.raise e) s.enable

/-- R193: the raw set without the named kinds, and without the named stations of the named station kinds. -/
def RawEvents.clearNamed (r : RawEvents) (kinds stations : Mask) : RawEvents :=
  let without (k : EventKind) (m : Mask) : Mask := if kinds.getLsbD k.bit then m &&& ~~~stations else m
  { flags := r.flags &&& ~~~(kinds &&& plainBits)
    offline := without .stationOffline r.offline
    online := without .stationOnline r.online
    lineCheck := without .lineCheck r.lineCheck
    overrun := without .typeAheadOverrun r.overrun }

end Sys2Proof.Machine
end

