-- ==== Sys2Proof/Machine/Ops.lean ====
section
/-! DEFINITION. The shared operations on the whole state: stations, the slots of the transmit queue (R180, R183, R185,
R186), the template store's counts and use counts (R1, R20, R21), the row pool (R31, R32), and one act on a station. -/

namespace Sys2Proof.Machine

/-! ### Stations -/

def State.station (s : State) (i : StationId) : Station := s.stations[i]

def State.setStation (s : State) (i : StationId) (st : Station) : State :=
  { s with stations := s.stations.set i st }

/-- Change the record of one station. -/
def State.modStation (s : State) (i : StationId) (f : Station → Station) : State := s.setStation i (f (s.station i))

/-- Change the paint state of one station. -/
def State.modPaint (s : State) (i : StationId) (f : Paint → Paint) : State :=
  s.modStation i (fun st => { st with paint := f st.paint })

/-- Change the loop record of one station. -/
def State.modLink (s : State) (i : StationId) (f : LoopRecord → LoopRecord) : State :=
  s.modStation i (fun st => { st with link := st.link.map f })

/-- The station indices in ascending order. -/
def stationIds : List StationId := List.finRange 16

def genIds : List GenId := List.finRange 24

def entryIds : List EntryId := List.finRange 48

/-- Whether a station is attached. -/
def State.attached (s : State) (i : StationId) : Bool := (s.station i).state != .detached

/-- The station index of a station number as received. -/
def stationOf (n : Nat) : Option StationId :=
  if h : 1 ≤ n ∧ n ≤ 16 then some ⟨n - 1, by omega⟩ else none

/-! ### The transmit queue -/

/-- R180: a general slot that is neither reserved nor occupied. -/
def State.freeSlot (s : State) : Option GenId := genIds.find? (fun g => s.general[g] == .free)

/-- R180, R195: the trunk-ready output. -/
def State.trunkReady (s : State) : Bool := !s.resetInput && s.freeSlot.isSome

/-- R183: free a general slot. -/
def State.release (s : State) (g : GenId) : State := { s with general := s.general.set g .free }

/-- R183, R185: place an inbound record in a general slot; its wait begins. -/
def State.place (s : State) (g : GenId) (address : Nat) (r : Inbound) : State :=
  { s with general := s.general.set g (.occupied address r), waiting := s.waiting ++ [.general g] }

/-- Answer a control record (R185: address 0). -/
def State.answer (s : State) (g : GenId) (r : Inbound) : State := s.place g 0 r

/-- Refuse a control record: an exception with the record's kind, address 0. -/
def State.refuseControl (s : State) (g : GenId) (kind : Nat) (reason : Reason) : State :=
  s.answer g (.exception { reason := reason, target := some (0, kind), step := none, index := none })

/-- R182: an exception to a station record, with its step and entry index where it has them. -/
def State.refuseRecord (s : State) (i : StationId) (g : GenId) (kind : Nat) (reason : Reason)
    (step index : Option Nat) : State :=
  s.place g (stationNumber i)
    (.exception { reason := reason, target := some (stationNumber i, kind), step := step, index := index })

/-- R183: the general slot that holds the SNAPSHOT record of a station, waiting or in transmission. -/
def State.snapshotSlot (s : State) (i : StationId) : Option GenId :=
  genIds.find? (fun g => s.general[g] == .occupied (stationNumber i) .snapshot)

/-- R143: the snapshot freeze of a station. -/
def State.frozen (s : State) (i : StationId) : Bool := s.attention[i].isSome || (s.snapshotSlot i).isSome

/-- R135, R137: place the ATTENTION record of a station in its attention slot. -/
def State.placeAttention (s : State) (i : StationId) (key : Byte) : State :=
  { s with attention := s.attention.set i (some key), waiting := s.waiting ++ [.attention i] }

/-- R186: the octets on the line of a cut frame, of which `sent` octets had gone: the header as declared, every payload
octet not yet sent as FFh, and the one's complement of the check over what was sent. -/
def cutFrame (octets : List Byte) (sent : Nat) : List Byte :=
  let header := octets.take 6
  let payload := (octets.drop 6).dropLast.dropLast
  let kept := payload.take (sent - 6)
  let body := header ++ (kept ++ List.replicate (payload.length - kept.length) 0xFF)
  let wrong := encodeWord (~~~(crc16 (body.drop 2)))
  let whole := body ++ wrong
  octets.take sent ++ whole.drop sent

/-- R186: how many octets of a frame had gone when it was cut: a free value below its length, for a record is cut before
its last octet (assumption 7). -/
def State.octetsSent (s : State) (octets : List Byte) : Nat := Config.octetsSentAtCut s.cuts % octets.length

/-- R186: cut the record in transmission; the transmitter finishes its frame. -/
def State.cut (s : State) : State :=
  match s.tx with
  | .sending _ octets => { s with tx := .completing (cutFrame octets (s.octetsSent octets)), cuts := s.cuts + 1 }
  | .idle => s
  | .completing _ => s

/-- Whether the record of a slot is in transmission. -/
def State.isSending (s : State) (n : SlotName) : Bool :=
  match s.tx with
  | .sending m _ => m == n
  | .idle => false
  | .completing _ => false

/-- R186, R188: take the record of a slot out of the transmit queue: cut in transmission, else simply removed. -/
def State.removeRecord (s : State) (n : SlotName) : State :=
  if s.isSending n then s.cut else { s with waiting := s.waiting.filter (fun m => m != n) }

/-! ### Template Store -/

/-- What a context built on nothing would be built on; stands for an entry that holds no version, which no context
names. -/
def emptyVersion : TemplateVersion :=
  { id := 0, version := 0, status := .retired, useCount := 0
    group := { first := 0, visible := 0, maxRows := 0, insertAllowed := false, deleteAllowed := false }
    fixed := [], rowDefs := [], literals := [] }

/-- The version of a table entry. -/
def State.versionAt (s : State) (e : EntryId) : TemplateVersion := s.table[e].getD emptyVersion

/-- R11: the entry of the LIVE version of an id. -/
def State.liveEntry (s : State) (id : Nat) : Option EntryId :=
  entryIds.find? (fun e => match s.table[e] with
    | some v => v.id == id && v.status == .live
    | none => false)

/-- The characters of a list of literal runs. -/
def literalChars (l : List LiteralRun) : Nat := (l.map (fun r => r.text.length)).sum

/-- R1: what one table entry occupies of a resource. -/
def occupiedBy (f : TemplateVersion → Nat) (o : Option TemplateVersion) : Nat :=
  match o with
  | some v => f v
  | none => 0

/-- R1: what a staged load has reserved of a resource. -/
def reservedBy (f : LoadBegin → Nat) (o : Option Staging) : Nat :=
  match o with
  | some g => f g.declared
  | none => 0

/-- R1: the free table entries. -/
def State.freeEntries (s : State) : Nat :=
  Config.tableEntries - (s.table.toList.map (occupiedBy (fun _ => 1))).sum - reservedBy (fun _ => 1) s.staging

/-- R1: the free field-definition entries. -/
def State.freeDefinitions (s : State) : Nat :=
  Config.definitionPool
    - (s.table.toList.map (occupiedBy (fun v => v.fixed.length + v.rowDefs.length))).sum
    - reservedBy (fun p => p.fixedCount + p.rowCount) s.staging

/-- R1: the free literal characters. -/
def State.freeLiterals (s : State) : Nat :=
  Config.literalPool - (s.table.toList.map (occupiedBy (fun v => literalChars v.literals))).sum
    - reservedBy (fun p => p.literalTotal) s.staging

def State.setEntry (s : State) (e : EntryId) (o : Option TemplateVersion) : State :=
  { s with table := s.table.set e o }

/-- R21: free a RETIRED version whose use count is 0, raising TEMPLATE FREED; any other version stays. -/
def State.freeIfUnused (s : State) (e : EntryId) : State :=
  match s.table[e] with
  | some v =>
    if v.status == .retired && v.useCount == 0 then (s.setEntry e none).raise .templateFreed else s
  | none => s

/-- R19, R21: retire a version, freeing it when nothing uses it. -/
def State.retire (s : State) (e : EntryId) : State :=
  match s.table[e] with
  | some v => (s.setEntry e (some { v with status := .retired })).freeIfUnused e
  | none => s

/-- R20: raise the use count of a version. -/
def State.raiseUse (s : State) (e : EntryId) : State :=
  match s.table[e] with
  | some v => s.setEntry e (some { v with useCount := v.useCount + 1 })
  | none => s

/-- R20, R21: lower the use count of a version, freeing it when it is RETIRED and reaches 0. -/
def State.lowerUse (s : State) (e : EntryId) : State :=
  match s.table[e] with
  | some v => (s.setEntry e (some { v with useCount := v.useCount - 1 })).freeIfUnused e
  | none => s

/-! ### One act on a station -/

/-- Begin an act on a station that holds the context `c`. -/
def State.openWork (s : State) (i : StationId) (c : Context) : Work :=
  { v := s.versionAt c.entry, st := s.station i, c := c, freeRows := s.freeRows
    snapshot := (s.snapshotSlot i).isSome, poolLow := false, latched := none }

/-- The part of an act's end that is outside the transmit queue and the events: the station and the row pool. -/
def State.storeWork (s : State) (i : StationId) (w : Work) : State :=
  { s.setStation i { w.st with ctx := some w.c } with freeRows := w.freeRows }

/-- R135: place the ATTENTION record of an act that latched one. -/
def State.placeLatched (s : State) (i : StationId) (key : Option Byte) : State :=
  match key with
  | some k => s.placeAttention i k
  | none => s

/-- End an act: its station and the row pool, POOL LOW where the act raised it (R32), then its ATTENTION record. -/
def State.closeWork (s : State) (i : StationId) (w : Work) : State :=
  let s := s.storeWork i w
  let s := if w.poolLow then s.raise .poolLow else s
  s.placeLatched i w.latched

/-- Make an act on a station; nothing happens at a station without a context. -/
def State.act (s : State) (i : StationId) (f : Work → Work) : State :=
  match (s.station i).ctx with
  | some c => s.closeWork i (f (s.openWork i c))
  | none => s

/-- R159: change a station, adding the MESSAGE entry when the indicator's text changes. -/
def Station.withIndicator (st : Station) (f : Station → Station) : Station :=
  let st' := f st
  if indicator st'.state st'.lock st'.ctx = indicator st.state st.lock st.ctx then st'
  else { st' with paint := st'.paint.add st'.ctx.isSome .message }

/-- R24, R159: change a station's state and lock together. -/
def State.setLock (s : State) (i : StationId) (state : StationState) (l : Lock) : State :=
  s.modStation i (fun st => st.withIndicator (fun st => { st with state := state, lock := l }))

/-- R151: set a full repaint of a station, with a new marker. -/
def State.setFull (s : State) (i : StationId) (m : Marker → Marker) : State :=
  s.modStation i (fun st => { st with paint := st.paint.setFull st.ctx.isSome (m st.paint.marker) })

end Sys2Proof.Machine
end

