-- ==== Sys2Proof/Machine/Contexts.lean ====
section
/-! DEFINITION. Station Contexts (02) and the records a station takes (06): dropping and building forms, the end of
COMPOSING and of RELEASING, FILL entries, the taking of records (R35), the disposal of keystrokes (R25) and the end of
a snapshot freeze (R143). -/

namespace Sys2Proof.Machine

/-! ### Dropping a form -/

/-- R28, R39, R44: drop the context of a station, when it has one: the rows return to the pool, the dirty list is
cleared, and the version's use count is lowered. -/
def State.dropContext (s : State) (i : StationId) : State :=
  match (s.station i).ctx with
  | some c =>
    let st := s.station i
    let s := s.setStation i { st with ctx := none, paint := { st.paint with dirty := [], band := none } }
    let s : State := { s with freeRows := s.freeRows + c.rows.length }
    s.lowerUse c.entry
  | none => s

/-- R43: a COMPOSE still in COMPOSING is superseded: it completes without a reply and its slot is released. -/
def State.supersede (s : State) (i : StationId) : State :=
  match (s.station i).reportSlot with
  | some g => (s.modStation i (fun st => { st with reportSlot := none, unlockAtEnd := false })).release g
  | none => s.modStation i (fun st => { st with unlockAtEnd := false })

/-! ### Draining at a station without a context (R37 in BLANK) -/

/-- R37, R25: the first attention key of a type-ahead queue and the keystrokes behind it; the keys before it are
discarded. -/
def firstAttention : List Byte → Option (Byte × List Byte)
  | [] => none
  | k :: rest => if isAttentionKey k then some (k, rest) else firstAttention rest

/-- R137: latch an attention at a BLANK station. -/
def State.latchBlank (s : State) (i : StationId) (key : Byte) : State :=
  (s.setLock i .attention .system).placeAttention i key

/-- R44, R127: the state becomes BLANK with lock NONE and the type-ahead queue is dealt with under R37. From ATTENTION the
indicator goes from SENT to NO FORM, and R159's MESSAGE entry is added; R44's "No paint is given" is taken to speak of a
full repaint, for a RELEASE as for an UNLOCK (DESIGN CHOICE, assumption 9). -/
def State.openBlank (s : State) (i : StationId) : State :=
  let s := s.setLock i .blank .none
  let st := s.station i
  if st.overrun then s.modStation i (fun st => { st with typeAhead := [], overrun := false })
  else match firstAttention st.typeAhead with
    | some (key, rest) => (s.modStation i (fun st => { st with typeAhead := rest })).latchBlank i key
    | none => s.modStation i (fun st => { st with typeAhead := [] })

/-! ### The end of RELEASING and of COMPOSING -/

/-- R45, R158: RELEASING ends in BLANK; the marker is NONE and the RELEASE is answered DONE in its slot. The rest of the
paint state is kept (R160): a clearing repaint that is still to be written stays pending, and one whose block has been
built but not rendered, which cleared the full-repaint flag (R152), is not set again, where R45 and R158 say that it stays
pending (DESIGN CHOICE, assumption 32). -/
def State.endReleasing (s : State) (i : StationId) : State :=
  let g := (s.station i).releaseSlot
  let s := s.setLock i .blank .none
  let s := s.modStation i (fun st => { st with releaseSlot := none, paint := { st.paint with marker := .none } })
  match g with
  | some g => s.place g (stationNumber i) (.done 0x27)
  | none => s

/-- R43: COMPOSING ends: in ENTRY with the keyboard opened, or in HELD; a pending COMPOSED is placed, and the compose
options are cleared. -/
def State.endComposing (s : State) (i : StationId) : State :=
  let st := s.station i
  let s := if st.unlockAtEnd then s.act i Work.openKeyboard else s.setLock i .held .system
  let s := s.modStation i (fun st => { st with unlockAtEnd := false, reportSlot := none })
  match st.reportSlot with
  | some g => s.place g (stationNumber i) .composed
  | none => s

/-! ### COMPOSE (R38 to R42) -/

/-- R40: apply one value of a COMPOSE to the instances of a definition list: FIELD, FORMAT, or the instances. -/
def applyValue (defs : List FieldDef) (insts : List FieldInst) (x : ValueEntry) : Except Reason (List FieldInst) :=
  match defs.findIdx? (fun d => d.id == x.id) with
  | none => .error .field
  | some j => match defs[j]? with
    | none => .error .field
    | some d =>
      if !hostSettable d then .error .field
      else match hostText d x.text with
        | none => .error .format
        | some w => .ok (modifyNth insts j (fun y => setByHost y w))

/-- Apply the values of one entry in order. -/
def applyValues (defs : List FieldDef) : List FieldInst → List ValueEntry → Except Reason (List FieldInst)
  | insts, [] => .ok insts
  | insts, x :: rest =>
    match applyValue defs insts x with
    | .error e => .error e
    | .ok insts => applyValues defs insts rest

/-- A failure of COMPOSE: its reason, step and entry index (R42). -/
structure ComposeFailure where
  reason : Reason
  step : Nat
  index : Option Nat
  deriving DecidableEq, Repr

/-- R40 step 3: apply the fixed-field entries, numbered from `k`. -/
def applyFixed (defs : List FieldDef) :
    Nat → List FieldInst → List ValueEntry → Except ComposeFailure (List FieldInst)
  | _, insts, [] => .ok insts
  | k, insts, x :: rest =>
    match applyValue defs insts x with
    | .error e => .error ⟨e, 3, some k⟩
    | .ok insts => applyFixed defs (k + 1) insts rest

/-- R40: whether a tag (0 = none) repeats one given to an earlier row. -/
def tagRepeats (tag : Nat) (rows : List RowRec) : Bool :=
  tag != 0 && rows.any (fun r => r.tag == some tag)

/-- A tag octet pair as a row holds it. -/
def tagOf (tag : Nat) : Option Nat := if tag = 0 then none else some tag

/-- R40 step 4: a row entry: its row, or the reason it fails. Where a row entry both repeats a tag and carries a bad
value, the reason is open (assumption 8). -/
def composeRow (defs : List FieldDef) (built : List RowRec) (x : RowEntry) : Except Reason RowRec :=
  match tagRepeats x.tag built, applyValues defs (defs.map initialInst) x.values with
  | true, .ok _ => .error .row
  | true, .error e => .error (if Config.composeTagBeforeValues then .row else e)
  | false, .error e => .error e
  | false, .ok insts => .ok { insts := insts, tag := tagOf x.tag, operatorCreated := false }

/-- R40 step 4: apply the row entries, numbered from `k`. -/
def composeRows (defs : List FieldDef) :
    Nat → List RowRec → List RowEntry → Except ComposeFailure (List RowRec)
  | _, built, [] => .ok built
  | k, built, x :: rest =>
    match composeRow defs built x with
    | .error e => .error ⟨e, 4, some k⟩
    | .ok r => composeRows defs (k + 1) (built ++ [r]) rest

/-- R40: steps 3 and 4: the context with the values of the record, before step 5. -/
def buildContext (v : TemplateVersion) (e : EntryId) (c : ComposeRec) : Except ComposeFailure Context :=
  match applyFixed v.fixed 1 (v.fixed.map initialInst) c.fixed with
  | .error f => .error f
  | .ok fixed =>
    match composeRows v.rowDefs (c.fixed.length + 1) [] c.rows with
    | .error f => .error f
    | .ok rows => .ok
        { entry := e, fixed := fixed, rows := rows, first := 1, cursor := ⟨1, 1⟩, insertMode := false
          editing := false, deletedTags := [], adjusted := false }

/-- R41: the window first row and the cursor of step 5. -/
def placeCursor (v : TemplateVersion) (c : Context) (ref : FieldRef) : Context :=
  match resolveRef v c ref with
  | .ok (r, _) =>
    let first := match r with
      | .fixed _ => 1
      | .row p _ => if p ≤ v.group.visible then 1 else clampFirst v.group c.rows.length p
    let c := { c with first := first }
    { c with cursor := fieldStart v c r }
  | .error _ =>
    let c := { c with first := 1 }
    { c with cursor := homePos v c }

/-- R42: a COMPOSE that fails at step 2, 3 or 4, having taken `taken` rows, leaves the station BLANK. -/
def State.composeFails (s : State) (i : StationId) (g : GenId) (e : EntryId) (taken : Nat) (f : ComposeFailure) :
    State :=
  let s : State := { s with freeRows := s.freeRows + taken }
  let s := s.lowerUse e
  let s := s.modStation i (fun st =>
    { st with state := .blank, lock := .none, typeAhead := [], overrun := false, unlockAtEnd := false
              reportSlot := none })
  let s := s.setFull i (fun _ => .none)
  s.refuseRecord i g 0x20 f.reason (some f.step) f.index

/-- R41: step 5 and the success of a COMPOSE. -/
def State.composeSucceeds (s : State) (i : StationId) (g : GenId) (c : ComposeRec) (ctx : Context) : State :=
  let w := (s.openWork i ctx).tallyAll
  let built := placeCursor w.v w.c c.cursor
  let s := s.modStation i (fun st =>
    { st with state := .composing, lock := .system, ctx := some built
              typeAhead := if c.keepTypeAhead then st.typeAhead else []
              overrun := c.keepTypeAhead && st.overrun
              unlockAtEnd := c.unlock, reportSlot := if c.report then some g else none })
  let s := s.setFull i (fun _ => .owed)
  if c.report then s else s.release g

/-- R39: the take of step 2, which may raise POOL LOW. -/
def State.takeRows (s : State) (k : Nat) : State :=
  let falls := poolFalls s.freeRows k
  let s : State := { s with freeRows := s.freeRows - k }
  if falls then s.raise .poolLow else s

/-- R38 to R42: a COMPOSE taken by a station. -/
def State.takeCompose (s : State) (i : StationId) (g : GenId) (c : ComposeRec) : State :=
  match s.liveEntry c.id with
  | none => s.refuseRecord i g 0x20 .template (some 1) none
  | some e =>
    let s := ((s.dropContext i).supersede i).raiseUse e
    let v := s.versionAt e
    if v.group.maxRows < c.rows.length then s.composeFails i g e 0 ⟨.row, 2, none⟩
    else if s.freeRows < c.rows.length then s.composeFails i g e 0 ⟨.pool, 2, none⟩
    else
      let s := s.takeRows c.rows.length
      match buildContext v e c with
      | .error f => s.composeFails i g e c.rows.length f
      | .ok ctx => s.composeSucceeds i g c ctx

/-! ### FILL (R114 to R124) -/

/-- R117: an applied SET. -/
def Work.setInst (w : Work) (r : InstRef) (x : FieldInst) (t : Text × Option Int) : Work :=
  let cursorIn := instAt w.v w.c w.c.cursor == some r
  let w' := w.putInst r (setByHost x t)
  let w' := if cursorIn then w'.setEditing false else w'
  if t.2 = x.value then w' else w'.tally (changedRow r)

/-- R123: the edit of an instance is abandoned: a NUMERIC one shows its committed value again. -/
def Work.abandonEdit (w : Work) (r : InstRef) : Work :=
  let w := w.setEditing false
  match w.v.defOf r, w.c.inst? r with
  | some d, some x =>
    if isNumeric d then w.putInst r { x with text := displayForm (numForm d) x.value } else w
  | _, _ => w

/-- R123: after an applied entry, with the reference that now names the instance the cursor was in before it. -/
def Work.leaveInst (w : Work) (before : Option InstRef) : Work :=
  match before with
  | none => w
  | some r => if w.c.editing && instAt w.v w.c w.c.cursor != some r then w.abandonEdit r else w

/-- Where an instance stands after a row was inserted at position `q`. -/
def shiftedByInsert (q : Nat) (r : InstRef) : InstRef :=
  match r with
  | .fixed i => .fixed i
  | .row p j => if q ≤ p then .row (p + 1) j else .row p j

/-- Where an instance stands after the row at position `q` was removed; absent when it went with the row. -/
def shiftedByRemove (q : Nat) (r : InstRef) : Option InstRef :=
  match r with
  | .fixed i => some (.fixed i)
  | .row p j => if p = q then none else if q < p then some (.row (p - 1) j) else some (.row p j)

/-- R74: the BAND entry of a change to the row list at position `p`, unless it lies wholly below the window. -/
def Work.dirtyBandAt (w : Work) (p : Nat) : Work :=
  if p < w.c.first + w.v.group.visible then w.dirty .band else w

/-- R118, R119: APPEND ROW and INSERT ROW at position `p`. -/
def Work.fillInsert (w : Work) (p : Nat) (x : RowEntry) : Except Reason Work :=
  if p < 1 || w.rowCount + 1 < p then .error .row
  else if w.v.group.maxRows ≤ w.rowCount then .error .row
  else if 65535 < x.tag || tagRepeats x.tag w.c.rows then .error .row
  else match applyValues w.v.rowDefs (w.v.rowDefs.map initialInst) x.values with
    | .error e => .error e
    | .ok insts =>
      if w.freeRows = 0 then .error .pool
      else
        let before := (instAt w.v w.c w.c.cursor).map (shiftedByInsert p)
        let w := w.takeRow.insertRowAt p { insts := insts, tag := tagOf x.tag, operatorCreated := false }
        let w := ((w.dirtyBandAt p).computeRow p).computeAllSums
        .ok (w.leaveInst before)

/-- R120: DELETE ROW. -/
def Work.fillDelete (w : Work) (p : Nat) : Except Reason Work :=
  if p < 1 || w.rowCount < p then .error .row
  else
    let before := instAt w.v w.c w.c.cursor
    let shown := p < w.c.first + w.v.group.visible
    let w := (w.removeRowAt p).returnRow
    let w : Work := { w with c := { w.c with first := clampFirst w.v.group w.rowCount w.c.first } }
    let w := if shown then w.dirty .band else w
    let w := w.computeAllSums
    match before with
    | none => .ok w
    | some r => match shiftedByRemove p r with
      | none => .ok (w.setEditing false)
      | some r' => .ok (w.leaveInst (some r'))

/-- R121: TAG ROW. -/
def Work.fillTag (w : Work) (p tag : Nat) : Except Reason Work :=
  if p < 1 || w.rowCount < p || 65535 < tag then .error .row
  else if tagRepeats tag (w.c.rows.eraseIdx (p - 1)) then .error .row
  else .ok { w with c := { w.c with rows := modifyNth w.c.rows (p - 1) (fun x => { x with tag := tagOf tag }) } }

/-- R122: CURSOR. -/
def Work.fillCursor (w : Work) (ref : FieldRef) : Except Reason Work :=
  match resolveRef w.v w.c ref with
  | .error e => .error e
  | .ok (r, _) =>
    let before := instAt w.v w.c w.c.cursor
    let w := w.showRow r
    .ok ((w.moveCursor (fieldStart w.v w.c r)).leaveInst before)

/-- R116: SET. -/
def Work.fillSet (w : Work) (ref : FieldRef) (t : Text) : Except Reason Work :=
  match resolveRef w.v w.c ref with
  | .error e => .error e
  | .ok (r, d) =>
    if !hostSettable d then .error .field
    else match hostText d t, w.c.inst? r with
      | none, _ => .error .format
      | some x, some y => .ok (w.setInst r y x)
      | some _, none => .error .row

/-- R114: check one entry in full and apply it. -/
def Work.fillEntry (w : Work) (e : FillEntry) : Except Reason Work :=
  match e with
  | .set ref text => w.fillSet ref text
  | .appendRow row => w.fillInsert (w.rowCount + 1) row
  | .insertRow position row => w.fillInsert position row
  | .deleteRow position => w.fillDelete position
  | .tagRow position tag => w.fillTag position tag
  | .cursor ref => w.fillCursor ref

/-- R114: apply the entries in record order, numbered from `k`, up to the first that fails. -/
def Work.fillEntries (w : Work) : Nat → List FillEntry → Work × Option (Reason × Nat)
  | _, [] => (w, none)
  | k, e :: rest =>
    match w.fillEntry e with
    | .error r => (w, some (r, k))
    | .ok w => w.fillEntries (k + 1) rest

/-- R124, R128: a context with every modified flag clear and no deleted tags. -/
def clearModifiedIn (c : Context) : Context :=
  let clear (x : FieldInst) : FieldInst := { x with modified := false }
  { c with fixed := c.fixed.map clear, rows := c.rows.map (fun r => { r with insts := r.insts.map clear })
           deletedTags := [] }

/-- R124, R127: UNLOCK in the station's state, at a station with a context. -/
def Work.unlock (w : Work) : Work :=
  match w.st.state with
  | .held => w.openKeyboard
  | .attention => w.openKeyboard
  | .composing => { w with st := { w.st with unlockAtEnd := true } }
  | .detached => w
  | .blank => w
  | .entry => w
  | .releasing => w

/-- R124: the options of a FILL, in their order. -/
def Work.fillOptions (w : Work) (unlock clearModified : Bool) : Work :=
  let w : Work := if clearModified then { w with c := clearModifiedIn w.c } else w
  if unlock then w.unlock else w

/-- R114: a whole FILL on a station's work: the entries, and the options when every entry was applied. -/
def Work.fill (w : Work) (entries : List FillEntry) (unlock clearModified : Bool) : Work × Option (Reason × Nat) :=
  match w.fillEntries 1 entries with
  | (w, some f) => (w, some f)
  | (w, none) => (w.fillOptions unlock clearModified, none)

/-- R110 to R114: a FILL taken by a station. -/
def State.takeFill (s : State) (i : StationId) (g : GenId) (entries : List FillEntry)
    (unlock clearModified : Bool) : State :=
  match (s.station i).ctx with
  | none => s.refuseRecord i g 0x21 .state none none
  | some c =>
    match (s.openWork i c).fill entries unlock clearModified with
    | (w, some (reason, index)) => (s.closeWork i w).refuseRecord i g 0x21 reason none (some index)
    | (w, none) => (s.closeWork i w).place g (stationNumber i) (.done 0x21)

/-! ### NOTE, LOCK, UNLOCK, RESET MODIFIED, READ and RELEASE (R125 to R130) -/

def State.doneRecord (s : State) (i : StationId) (g : GenId) (kind : Nat) : State :=
  s.place g (stationNumber i) (.done kind)

/-- R125: NOTE. -/
def State.takeNote (s : State) (i : StationId) (g : GenId) (alarm : Bool) (t : Text) : State :=
  if !t.all isComposerChar || Config.noteWidth < t.length then s.refuseRecord i g 0x22 .format none none
  else
    let s := s.modStation i (fun st => { st with note := padRight Config.noteWidth t })
    let s := s.modStation i (fun st => { st with paint := st.paint.add st.ctx.isSome .message })
    let s := if alarm then s.modPaint i (fun p => { p with alarm := true }) else s
    s.doneRecord i g 0x22

/-- R126: LOCK. -/
def State.takeLock (s : State) (i : StationId) (g : GenId) : State :=
  match (s.station i).state, (s.station i).ctx with
  | .entry, some _ => (s.setLock i .held .system).doneRecord i g 0x23
  | .composing, some _ => (s.modStation i (fun st => { st with unlockAtEnd := false })).doneRecord i g 0x23
  | .held, some _ => s.doneRecord i g 0x23
  | .attention, some _ => s.doneRecord i g 0x23
  | _, _ => s.refuseRecord i g 0x23 .state none none

/-- R127: UNLOCK. -/
def State.takeUnlock (s : State) (i : StationId) (g : GenId) : State :=
  match (s.station i).state, (s.station i).ctx with
  | .attention, none => (s.openBlank i).doneRecord i g 0x24
  | _, some _ => (s.act i Work.unlock).doneRecord i g 0x24
  | _, none => s.refuseRecord i g 0x24 .state none none

/-- R128: RESET MODIFIED. -/
def State.takeResetModified (s : State) (i : StationId) (g : GenId) : State :=
  match (s.station i).ctx with
  | some c => (s.modStation i (fun st => { st with ctx := some (clearModifiedIn c) })).doneRecord i g 0x25
  | none => s.refuseRecord i g 0x25 .state none none

/-- R129: READ. -/
def State.takeRead (s : State) (i : StationId) (g : GenId) : State :=
  match (s.station i).ctx with
  | some _ =>
    let s := s.place g (stationNumber i) .snapshot
    match (s.station i).state, (s.station i).lock with
    | .entry, .none => s.setLock i .entry .snapshot
    | _, _ => s
  | none => s.refuseRecord i g 0x26 .state none none

/-- R44: whether RELEASING ends at once: the loop STOPPED or the station OFFLINE. -/
def State.endsAtOnce (s : State) (i : StationId) : Bool :=
  s.loop.mode == .stopped
    || (match (s.station i).link with
      | some l => !l.online
      | none => true)

/-- R44, R130: RELEASE. -/
def State.takeRelease (s : State) (i : StationId) (g : GenId) : State :=
  match (s.station i).ctx with
  | some _ =>
    let s := (s.dropContext i).supersede i
    let s := s.modStation i (fun st =>
      { st with state := .releasing, lock := .system, typeAhead := [], overrun := false, releaseSlot := some g })
    let s := s.setFull i (fun _ => .owed)
    if s.endsAtOnce i then s.endReleasing i else s
  | none => (s.openBlank i).doneRecord i g 0x27

/-! ### Taking records (R35) -/

/-- R111: a station takes a record. -/
def State.takeRecord (s : State) (i : StationId) (q : Queued) : State :=
  match q.record with
  | .compose c => s.takeCompose i q.slot c
  | .fill entries unlock clearModified => s.takeFill i q.slot entries unlock clearModified
  | .note alarm text => s.takeNote i q.slot alarm text
  | .lock => s.takeLock i q.slot
  | .unlock => s.takeUnlock i q.slot
  | .resetModified => s.takeResetModified i q.slot
  | .read => s.takeRead i q.slot
  | .release => s.takeRelease i q.slot

/-- R35: take head records while the conditions hold; `fuel` bounds their number by the length of the queue. -/
def State.takeUpTo (i : StationId) : Nat → State → State
  | 0, s => s
  | fuel + 1, s =>
    match (s.station i).records with
    | [] => s
    | q :: rest =>
      if (s.station i).state == .releasing || s.frozen i then s
      else State.takeUpTo i fuel ((s.modStation i (fun st => { st with records := rest })).takeRecord i q)

/-- R35: a station takes its waiting records. -/
def State.takeWaiting (s : State) (i : StationId) : State := State.takeUpTo i (s.station i).records.length s

/-- R45: RELEASING ends, and the waiting records are taken. -/
def State.finishReleasing (s : State) (i : StationId) : State := (s.endReleasing i).takeWaiting i

/-- R158: the block that carried the marker has been rendered. -/
def State.markerRendered (s : State) (i : StationId) : State :=
  let s := s.modPaint i (fun p => { p with marker := .none })
  match (s.station i).state with
  | .composing => s.endComposing i
  | .releasing => s.finishReleasing i
  | _ => s

/-- R181, R34: a decoded station record at the trunk port, with its reserved slot: refused, or joined to the record
queue, and taken under R35. -/
def State.arriveStation (s : State) (i : StationId) (r : StationRecord) (g : GenId) : State :=
  if (s.station i).state == .detached then s.refuseRecord i g (stationKind r) .detached none none
  else if Config.recordQueue ≤ (s.station i).records.length then
    s.refuseRecord i g (stationKind r) .queue none none
  else (s.modStation i (fun st => { st with records := st.records ++ [⟨g, r⟩] })).takeWaiting i

/-! ### Keystrokes at a station (R25, R36) -/

/-- R36: a keystroke joins the type-ahead queue, or is discarded and sets the overrun flag. -/
def State.joinTypeAhead (s : State) (i : StationId) (k : Byte) : State :=
  let st := s.station i
  if st.typeAhead.length < Config.typeAhead then s.setStation i { st with typeAhead := st.typeAhead ++ [k] }
  else if st.overrun then s
  else (s.setStation i { st with overrun := true }).raise (.typeAheadOverrun i)

/-- R25: the disposal of a keystroke delivered to a station. -/
def State.deliverKey (i : StationId) (s : State) (k : Byte) : State :=
  match (s.station i).state, (s.station i).lock with
  | .entry, .none => s.act i (fun w => w.applyKey k)
  | .entry, .snapshot => s.joinTypeAhead i k
  | .entry, .operatorError _ => if k = resetKey then s.act i Work.resetError else s
  | .entry, .system => s
  | .blank, _ => if isAttentionKey k then s.latchBlank i k else s
  | .composing, _ => s.joinTypeAhead i k
  | .held, _ => s.joinTypeAhead i k
  | .attention, _ => s.joinTypeAhead i k
  | .releasing, _ => s
  | .detached, _ => s

/-- R26: the operator error LINE CHECK, where the state and lock admit it. -/
def State.lineCheckError (s : State) (i : StationId) : State :=
  match (s.station i).state, (s.station i).lock with
  | .entry, .none => s.act i (fun w => w.operatorError .lineCheck)
  | .entry, .operatorError _ => s.act i (fun w => w.operatorError .lineCheck)
  | _, _ => s

/-- R143, R27: the end of the freeze of a SNAPSHOT record, its slot already free: the SNAPSHOT lock is lifted and the
type-ahead queue drained, then the waiting records are taken. -/
def State.endSnapshotFreeze (s : State) (i : StationId) : State :=
  let s := if (s.station i).lock == .snapshot then s.act i Work.openKeyboard else s
  s.takeWaiting i

end Sys2Proof.Machine
end

