-- ==== Sys2Proof/Machine/Formats.lean ====
section
/-! DEFINITION. The octets the composer sends (11.1 to 11.5): inbound payloads and frames on the trunk, the content of
ATTENTION and SNAPSHOT records (R138 to R142), poll and paint frames on the loop, and the reading of an answer (R197). -/

namespace Sys2Proof.Machine

/-! ### Code values (11.3) -/

def StationState.code (x : StationState) : Nat :=
  match x with
  | .detached => 0
  | .blank => 1
  | .composing => 2
  | .entry => 3
  | .held => 4
  | .attention => 5
  | .releasing => 6

def ErrorCode.code (x : ErrorCode) : Nat :=
  match x with
  | .isProtected => 0
  | .numeric => 1
  | .letters => 2
  | .range => 3
  | .full => 4
  | .mandatory => 5
  | .noRoom => 6
  | .overrun => 7
  | .lineCheck => 8

def Lock.code (x : Lock) : Nat :=
  match x with
  | .none => 0
  | .system => 1
  | .snapshot => 2
  | .operatorError _ => 3

/-- The operator-error code of a lock; absent, and so sent as 0, under another lock. -/
def Lock.errorCode (x : Lock) : Nat :=
  match x with
  | .none => 0
  | .system => 0
  | .snapshot => 0
  | .operatorError e => e.code

def Reason.code (x : Reason) : Nat :=
  match x with
  | .frame => 0
  | .address => 1
  | .format => 2
  | .detached => 3
  | .queue => 4
  | .state => 5
  | .template => 6
  | .field => 7
  | .row => 8
  | .pool => 9
  | .store => 10
  | .load => 11
  | .limit => 12

def DerivedStatus.code (x : DerivedStatus) : Nat :=
  match x with
  | .valid => 0
  | .saturated => 1
  | .held => 2

def LoopMode.code (x : LoopMode) : Nat :=
  match x with
  | .stopped => 0
  | .running => 1
  | .held => 2

def bit (b : Bool) : Nat := if b then 1 else 0

/-! ### ATTENTION and SNAPSHOT (R138 to R142, 11.5) -/

/-- R139: the cursor part: form, position and reference. -/
def cursorPart (v : TemplateVersion) (c : Context) : List Byte :=
  let row := octet c.cursor.row
  let col := octet c.cursor.col
  match instAt v c c.cursor with
  | none => [1, row, col, 0, 0]
  | some (.fixed i) => [2, row, col, octet ((v.fixed[i]?.map FieldDef.id).getD 0), 0]
  | some (.row p j) => [3, row, col, octet ((v.rowDefs[j]?.map FieldDef.id).getD 0), octet p]

/-- An instance entry: id and text. -/
def instEntry (d : FieldDef) (x : FieldInst) : List Byte := octet d.id :: encodeText x.text

/-- R139: the entries of the fixed part. -/
def fixedEntries (v : TemplateVersion) (c : Context) : List (List Byte) :=
  ((v.fixed.zip c.fixed).filter (fun e => e.2.modified)).map (fun e => instEntry e.1 e.2)

/-- R7: whether a derived definition carries the report flag. -/
def reportFlag (d : FieldDef) : Bool :=
  match d.kind with
  | .product _ _ _ part => part.report == 1
  | .sum _ _ part => part.report == 1
  | _ => false

/-- An excursion count in one octet, two's complement (R196). -/
def excursionOctet (x : Int) : Byte := BitVec.ofInt 8 x

/-- R140: the entries of the derived part. -/
def derivedEntries (v : TemplateVersion) (c : Context) : List (List Byte) :=
  ((v.fixed.zip c.fixed).filter (fun e => isSum e.1 && reportFlag e.1)).map (fun e =>
    [octet e.1.id, octet (16 * e.2.status.code + e.2.text.length), excursionOctet e.2.excursion] ++ e.2.text)

/-- 11.5: the excursion count of a PRODUCT in two bits. -/
def excursionBits (x : Int) : Nat := if x > 0 then 1 else if x < 0 then 3 else 0

/-- R141: the instances a row entry carries: the modified ones of a tagged row, all UNPROTECTED ones of an untagged
row. -/
def rowInstances (r : RowRec) (l : List (FieldDef × FieldInst)) : List (FieldDef × FieldInst) :=
  l.filter (fun e => if r.tag.isSome then e.2.modified else !e.1.prot)

/-- R141: the entry of the row at position `p`. -/
def rowEntry (v : TemplateVersion) (p : Nat) (r : RowRec) : List Byte :=
  let all := v.rowDefs.zip r.insts
  let insts := rowInstances r all
  let products := all.filter (fun e => isProduct e.1 && reportFlag e.1)
  octets2 (r.tag.getD 0) ++ [octet p, octet (128 * bit r.operatorCreated + products.length), octet insts.length]
    ++ insts.flatMap (fun e => instEntry e.1 e.2)
    ++ products.flatMap (fun e =>
      [octet e.1.id, octet (64 * excursionBits e.2.excursion + 16 * e.2.status.code + e.2.text.length)] ++ e.2.text)

/-- R141: whether a row has a row entry. -/
def rowReported (r : RowRec) : Bool := r.tag.isNone || r.insts.any FieldInst.modified

/-- R141: the row entries, in list order. -/
def rowEntries (v : TemplateVersion) (c : Context) : List (List Byte) :=
  (List.range c.rows.length).filterMap (fun k => match c.rows[k]? with
    | some r => if rowReported r then some (rowEntry v (k + 1) r) else none
    | none => none)

/-- R142: the deleted-tag part, ended by 0000h. -/
def deletedPart (tags : List Nat) : List Byte := tags.flatMap octets2 ++ [0, 0]

/-- 11.5: a payload from its key, cursor part, row-list length and parts. -/
def contentOctets (key : Byte) (cursor : List Byte) (n : Nat) (fixed derived rows : List (List Byte))
    (tags : List Nat) : List Byte :=
  key :: cursor ++ [octet n, octet fixed.length, octet derived.length, octet rows.length]
    ++ octets2 fixed.flatten.length ++ octets2 derived.flatten.length ++ octets2 rows.flatten.length
    ++ fixed.flatten ++ derived.flatten ++ rows.flatten ++ deletedPart tags

/-- R136 to R138: the content of an ATTENTION record (its struck key) or a SNAPSHOT record (key NONE, 00h), built from
the station as it stands. -/
def recordContent (v : TemplateVersion) (ctx : Option Context) (key : Byte) : List Byte :=
  match ctx with
  | none => contentOctets key [0, 0, 0, 0, 0] 0 [] [] [] []
  | some c =>
    if key = clearKey then contentOctets key (cursorPart v c) 0 [] [] [] []
    else contentOctets key (cursorPart v c) c.rows.length (fixedEntries v c) (derivedEntries v c) (rowEntries v c)
      c.deletedTags

/-! ### Replies (11.2) -/

/-- 11.2: an EVENT NOTICE payload, also the raw set of a STATUS reply. -/
def eventOctets (r : RawEvents) : List Byte :=
  encodeWord r.flags ++ encodeWord r.offline ++ encodeWord r.online ++ encodeWord r.lineCheck ++ encodeWord r.overrun

def loadOctets (l : Option LoadReport) : List Byte :=
  match l with
  | none => [0, 0, 0, 0, 0] ++ octets2 0 ++ [0, 0, 0] ++ octets2 0
  | some l => [1, octet l.id, octet l.fixedCount, octet l.rowCount, octet l.literalCount] ++ octets2 l.literalTotal
      ++ [octet l.fixedReceived, octet l.rowReceived, octet l.literalReceived] ++ octets2 l.charsReceived

def statusOctets (r : StatusReply) : List Byte :=
  [octet r.mode.code, octet r.speed, octet r.window, octet r.missLimit, octet r.freeEntries]
    ++ octets2 r.freeDefinitions ++ octets2 r.freeLiterals ++ octets2 r.freeRows ++ loadOctets r.load
    ++ r.stations.map (fun x => octet x.code) ++ eventOctets r.raw ++ encodeWord r.enable

def contextOctets (c : Option ContextReport) : List Byte :=
  match c with
  | none => [0, 0, 0, 0, 0, 0, 0]
  | some c => [1, octet c.id, octet c.version, octet c.n, octet c.first, octet c.cursor.row, octet c.cursor.col]

/-- 11.2: STATION STATUS. For a DETACHED station every part behind the state is absent (R190), and parts that a reply
gives as absent are sent as 0 (11.2). -/
def stationStatusOctets (state : StationState) (a : Option AttachedReport) : List Byte :=
  octet state.code :: match a with
    | some a => [octet a.lock.code, octet a.lock.errorCode] ++ contextOctets a.ctx
        ++ [octet a.inFlight, octet (bit a.online), octet a.missCount, octet a.dirty, octet a.typeAhead]
    | none => List.replicate 14 0

def exceptionOctets (e : ExceptionRec) : List Byte :=
  [octet e.reason.code, octet (bit e.target.isSome + 2 * bit e.step.isSome + 4 * bit e.index.isSome),
   octet ((e.target.map Prod.fst).getD 0), octet ((e.target.map Prod.snd).getD 0), octet (e.step.getD 0)]
    ++ octets2 (e.index.getD 0)

/-- 11.2: the kind octet and payload of an inbound record in a general slot; `snapshot` is the content of a SNAPSHOT. -/
def inboundOctets (r : Inbound) (snapshot : List Byte) : Nat × List Byte :=
  match r with
  | .done kind => (0x40, [octet kind])
  | .loaded id version retired => (0x41, [octet id, octet version, octet (bit retired.isSome), octet (retired.getD 0)])
  | .status r => (0x42, statusOctets r)
  | .stationStatus state a => (0x43, stationStatusOctets state a)
  | .composed => (0x44, [])
  | .exception e => (0x45, exceptionOctets e)
  | .snapshot => (0x51, snapshot)

/-- R179, R185: an inbound frame: start pattern, address, kind, length, payload and check. -/
def frameOctets (address kind : Nat) (payload : List Byte) : List Byte :=
  let checked := checkedOctets (octet address) (octet kind) payload
  [0xA5, 0x3C] ++ checked ++ encodeWord (crc16 checked)

/-- R138: the content of a station's ATTENTION or SNAPSHOT record as the state now stands. -/
def State.contentOf (s : State) (i : StationId) (key : Byte) : List Byte :=
  let ctx := (s.station i).ctx
  let v := match ctx with
    | some c => s.versionAt c.entry
    | none => emptyVersion
  recordContent v ctx key

/-- R185: the frame of the record in a slot, built as its transmission starts. -/
def State.slotOctets (s : State) (n : SlotName) : List Byte :=
  match n with
  | .general g => match s.general[g] with
    | .occupied address r =>
      let snapshot := match stationOf address with
        | some i => s.contentOf i 0
        | none => []
      frameOctets address (inboundOctets r snapshot).1 (inboundOctets r snapshot).2
    | .free => []
    | .reserved => []
  | .attention i => match s.attention[i] with
    | some key => frameOctets (stationNumber i) 0x50 (s.contentOf i key)
    | none => []
  | .event => frameOctets 0 0x46 (eventOctets (reported s.raw s.enable))

/-! ### Loop frames (11.4) -/

def orderOctets (o : Order) : List Byte :=
  match o with
  | .clear => [1]
  | .position row col => [2, octet row, octet col]
  | .attr a => [3, octet a]
  | .text t => 4 :: encodeText t
  | .eraseToRowEnd => [5]
  | .cursor row col => [6, octet row, octet col]
  | .alarm => [7]

/-- R197: the check octet over earlier octets. -/
def checkOctet (l : List Byte) : Byte := l.foldl (fun a b => a ^^^ b) 0

/-- R166, R197: the octets of the frame of a visit. -/
def visitOctets (x : Visit) : List Byte :=
  let body := match x.frame with
    | .poll => [octet (stationNumber x.station), 1]
    | .paint number mark orders =>
      let l := orders.flatMap orderOctets
      [octet (stationNumber x.station), 2, octet (128 * bit mark + number.val), octet l.length] ++ l
  body ++ [checkOctet body]

/-! ### Answers (R169, R197) -/

/-- What a good answer carries. -/
structure Answer where
  e : Fin 8
  r : Fin 8
  keys : List Byte
  deriving DecidableEq, Repr

/-- R197: read the octets of an answer to a visit of station `i`; absent when the answer is bad. -/
def readAnswer (i : StationId) (octets : List Byte) : Option Answer :=
  match octets with
  | station :: er :: count :: rest =>
    if Config.answerKeys < count.toNat || rest.length < count.toNat + 1 then none
    else
      let keys := rest.take count.toNat
      let check := rest.getD count.toNat 0
      if station != octet (stationNumber i) || check != checkOctet (station :: er :: count :: keys) then none
      else some { e := Fin.ofNat 8 er.toNat, r := Fin.ofNat 8 (er.toNat / 16), keys := keys }
  | _ => none

end Sys2Proof.Machine
end

