-- ==== Sys2Proof/Machine/Trunk.lean ====
section
/-! DEFINITION. The Trunk Port (10.1, 10.3): the receiver and the reservation at a first octet (R179, R180), the arrival
of a frame, and the transmitter (R185); with the meanings of FIRST_OCTET, SECOND_OCTET_NOT_START_PATTERN,
TRANSMISSION_START and LAST_OCTET_TRANSMITTED. -/

namespace Sys2Proof.Machine

/-! ### Receiving (R179, R180) -/

/-- R180: the A5h that begins a frame, found while hunting: it reserves a general slot, or with none free marks the
frame for discard. With the reset input asserted nothing is received (R195); in a frame the octet begins nothing
(assumption 4). -/
def State.beginFrame (s : State) : State :=
  if s.resetInput then s
  else match s.rx with
    | .hunting => match s.freeSlot with
      | some g => { s with general := s.general.set g .reserved, rx := .frame (some g) }
      | none => { s with rx := .frame none }
    | .frame _ => s

/-- R179, R180: the arrival of a frame. The receiver returns to hunting; a reserved frame is acted on with its slot, one
marked for discard has no effect. With the receiver hunting, the frame's first octet comes first (assumption 2). -/
def State.arrive (s : State) (f : State → GenId → State) : State :=
  if s.resetInput then s
  else
    let s := s.beginFrame
    match s.rx with
    | .frame (some g) => f { s with rx := .hunting } g
    | .frame none => { s with rx := .hunting }
    | .hunting => s

/-- R180: the octet behind an A5h is not 3Ch: the reservation is given back and hunting goes on. -/
def State.giveBack (s : State) : State :=
  match s.rx with
  | .frame (some g) => { s.release g with rx := .hunting }
  | .frame none => { s with rx := .hunting }
  | .hunting => s

/-- FIRST_OCTET (R180). -/
def execFirstOctet (s : State) : Host.Outcome State Fault Refusal := .next s.beginFrame

/-- SECOND_OCTET_NOT_START_PATTERN (R180). -/
def execSecondOctetNotStartPattern (s : State) : Host.Outcome State Fault Refusal := .next s.giveBack

/-! ### Transmitting (R184, R185) -/

/-- R184: the event slot when its WAITING notice starts. -/
def EventSlot.started (e : EventSlot) : EventSlot :=
  match e with
  | .waiting => .sending
  | .empty => .empty
  | .sending => .sending
  | .sendingOwed => .sendingOwed

/-- R185: start the record that has waited longest, its octets built now. -/
def State.startTransmission (s : State) : State :=
  match s.tx, s.waiting with
  | .idle, n :: rest =>
    let s' : State := { s with tx := .sending n (s.slotOctets n), waiting := rest }
    if n = .event then { s' with event := s.event.started } else s'
  | _, _ => s

/-- R184: the event slot when the last octet of its notice has gone: EMPTY, or WAITING with the notice owed. -/
def State.endNotice (s : State) : State :=
  match s.event with
  | .sendingOwed => { s with event := .waiting, waiting := s.waiting ++ [.event] }
  | .sending => { s with event := .empty }
  | .empty => s
  | .waiting => s

/-- Whether a general slot holds a SNAPSHOT record, and of which station. -/
def snapshotOf (x : GeneralSlot) : Option StationId :=
  match x with
  | .occupied address .snapshot => stationOf address
  | .occupied _ _ => none
  | .free => none
  | .reserved => none

/-- R183, R143: the last octet of a record in a general slot: the slot is freed, and the freeze of a SNAPSHOT ends. -/
def State.endGeneral (s : State) (g : GenId) : State :=
  match snapshotOf s.general[g] with
  | some i => (s.release g).endSnapshotFreeze i
  | none => s.release g

/-- R184, R143: the last octet of an ATTENTION record: the slot is empty and the freeze ends; the waiting records are
taken. -/
def State.endAttention (s : State) (i : StationId) : State :=
  let s : State := { s with attention := s.attention.set i none }
  s.takeWaiting i

/-- R185: the last octet of the record in transmission, or the last completion octet of a cut frame (R186). -/
def State.endTransmission (s : State) : State :=
  match s.tx with
  | .sending n _ =>
    let s : State := { s with tx := .idle }
    match n with
    | .general g => s.endGeneral g
    | .attention i => s.endAttention i
    | .event => s.endNotice
  | .completing _ => { s with tx := .idle }
  | .idle => s

/-- TRANSMISSION_START (R185). -/
def execTransmissionStart (s : State) : Host.Outcome State Fault Refusal := .next s.startTransmission

/-- LAST_OCTET_TRANSMITTED (R185). -/
def execLastOctetTransmitted (s : State) : Host.Outcome State Fault Refusal := .next s.endTransmission

end Sys2Proof.Machine
end

