-- ==== Sys2Proof/Machine/LoopControl.lean ====
section
/-! DEFINITION. The station loop (09): LOOP START and LOOP STOP (R162, R175), LOOP HOLD (R176, R177), the visits (R164 to
R166), the answers (R169 to R173) and the misses (R174). The model has no clock: the end of a frame, an answer and the
expiry of a window are commands (assumption 5). -/

namespace Sys2Proof.Machine

def loopStartKind : Nat := 0x08
def loopStopKind : Nat := 0x09

/-! ### The loop record -/

/-- R163: the number of blocks in flight, (N − A) mod 8. -/
def LoopRecord.inFlight (l : LoopRecord) : Nat := (l.n - l.a).val

/-- R174, R175: forget every block in flight. -/
def LoopRecord.forget (l : LoopRecord) : LoopRecord := { l with a := l.n }

/-- R167: the loop record after a resynchronisation. -/
def LoopRecord.resynced (l : LoopRecord) : LoopRecord := { l with a := l.n, restart := true }

/-- R167: resynchronise a station. -/
def State.resync (s : State) (i : StationId) : State := (s.modLink i LoopRecord.resynced).setFull i Marker.again

/-- Whether a station is ONLINE. -/
def State.online (s : State) (i : StationId) : Bool :=
  match (s.station i).link with
  | some l => l.online
  | none => false

/-! ### The visit order (R164) -/

/-- R164: the attached stations in ascending order. -/
def State.attachedIds (s : State) : List StationId := stationIds.filter s.attached

/-- R164: the station of the next visit: the lowest attached one above the last, else the lowest attached one. -/
def State.nextStation (s : State) : Option StationId :=
  match s.loop.last with
  | some j => (s.attachedIds.find? (fun i => j < i)).or s.attachedIds.head?
  | none => s.attachedIds.head?

/-! ### The stop (R175) -/

/-- R175: what a stop taking effect does to one station. The clearing repaint of a RELEASING station is kept as it stands
(R160, assumption 32). -/
def State.stopStation (s : State) (i : StationId) : State :=
  if !s.attached i then s
  else
    let s := s.modLink i LoopRecord.forget
    let st := s.station i
    if st.ctx.isSome && st.state != .releasing then s.setFull i Marker.again
    else
      let s := s.modPaint i (fun p => { p with marker := .none, cursorPending := false })
      if st.state == .releasing then s.finishReleasing i else s

/-- R175: the stop takes effect: the loop is STOPPED, the stations are dealt with in ascending order, and the LOOP STOP
in slot `g` is answered DONE. -/
def State.stopEffect (s : State) (g : GenId) : State :=
  let s : State := { s with loop := { s.loop with mode := .stopped, pendingStop := none, visit := none } }
  (stationIds.foldl State.stopStation s).answer g (.done loopStopKind)

/-- R175: let a pending stop take effect. -/
def State.applyPendingStop (s : State) : State :=
  match s.loop.pendingStop with
  | some g => s.stopEffect g
  | none => s

/-- The end of the visit under way: a pending stop takes effect, else the next visit follows (R164). -/
def State.endVisit (s : State) (i : StationId) : State :=
  State.applyPendingStop { s with loop := { s.loop with visit := none, last := some i } }

/-- R175: LOOP STOP. While RUNNING with a station attached a visit is always under way or due at once, and the stop
waits for its end (R177 says so of the first visit after a deassertion; assumption 20). -/
def State.loopStop (s : State) (g : GenId) : State :=
  match s.loop.mode with
  | .stopped => s.refuseControl g loopStopKind .state
  | .held => s.stopEffect g
  | .running =>
    if s.loop.pendingStop.isSome then s.refuseControl g loopStopKind .state
    else if s.loop.visit.isNone && s.attachedIds.isEmpty then s.stopEffect g
    else { s with loop := { s.loop with pendingStop := some g } }

/-! ### LOOP START (R162) -/

/-- A parameter that may be absent (0). -/
def orDefault (n default : Nat) : Nat := if n = 0 then default else n

/-- R162: the loop record of an attached station at LOOP START. -/
def LoopRecord.started (l : LoopRecord) : LoopRecord := { l with online := false, missCount := 0, restart := true }

/-- R162: the loop with new parameters, RUNNING or HELD by the level of the LOOP HOLD input. -/
def Loop.started (hold : Bool) (speed window missLimit : Nat) : Loop :=
  { mode := if hold then .held else .running
    speed := orDefault speed Config.defaultSpeed
    window := orDefault window Config.defaultWindow
    missLimit := orDefault missLimit Config.defaultMissLimit
    pendingStop := none, visit := none, last := none }

/-- R161: whether the parameters of a LOOP START, 0 for an absent one, are in range. -/
def loopParametersOk (speed window missLimit : Nat) : Bool := speed ≤ 3 && window ≤ 15 && missLimit ≤ 7

/-- R162: the loop starts. -/
def State.startLoop (s : State) (speed window missLimit : Nat) : State :=
  let s : State := { s with stations := mapVec (fun st => { st with link := st.link.map LoopRecord.started }) s.stations
                            loop := Loop.started s.holdInput speed window missLimit }
  if s.holdInput then s.raise .loopHoldOn else s

/-- R162: LOOP START. -/
def State.loopStart (s : State) (speed window missLimit : Nat) (g : GenId) : State :=
  if s.loop.mode != .stopped then s.refuseControl g loopStartKind .state
  else if !loopParametersOk speed window missLimit then s.refuseControl g loopStartKind .format
  else (s.startLoop speed window missLimit).answer g (.done loopStartKind)

/-! ### LOOP HOLD (R176, R177) -/

/-- R176: a paint frame cut in transmission leaves its station to be resynchronised. -/
def State.cutVisit (s : State) : State :=
  match s.loop.visit with
  | some x => match x.frame, x.sent with
    | .paint _ _ _, false => s.resync x.station
    | .paint _ _ _, true => s
    | .poll, _ => s
  | none => s

/-- R176: LOOP HOLD is asserted while the loop is RUNNING. -/
def State.hold (s : State) : State :=
  let s := s.cutVisit
  let s : State := { s with loop := { s.loop with visit := none, last := s.loop.visit.map Visit.station } }
  match s.loop.pendingStop with
  | some g => s.stopEffect g
  | none => State.raise { s with loop := { s.loop with mode := .held } } .loopHoldOn

/-- R176: the LOOP HOLD input is asserted. -/
def State.holdAsserted (s : State) : State :=
  let s : State := { s with holdInput := true }
  match s.loop.mode with
  | .running => s.hold
  | .stopped => s
  | .held => s

/-- R177: the LOOP HOLD input is deasserted. -/
def State.holdDeasserted (s : State) : State :=
  let s : State := { s with holdInput := false }
  match s.loop.mode with
  | .held => State.raise { s with loop := { s.loop with mode := .running } } .loopHoldOff
  | .running => s
  | .stopped => s

/-! ### Visits (R164 to R166) -/

/-- R165: whether a visit to a station sends a paint frame. -/
def paintDue (st : Station) (l : LoopRecord) : Bool :=
  l.online && st.paint.hasWork st.ctx.isSome && decide (l.inFlight < l.window)

/-- The template version of a station's context. -/
def State.versionOf (s : State) (i : StationId) : TemplateVersion :=
  match (s.station i).ctx with
  | some c => s.versionAt c.entry
  | none => emptyVersion

/-- Begin a visit with a frame. -/
def State.openVisit (s : State) (i : StationId) (f : LoopFrame) : State :=
  { s with loop := { s.loop with visit := some { station := i, frame := f, sent := false } } }

/-- R165: begin a visit to a station: a paint frame with a block built in the same act, or a poll frame. -/
def State.visit (s : State) (i : StationId) : State :=
  let st := s.station i
  match st.link with
  | some l =>
    if paintDue st l then
      let (orders, paint) := buildBlock st (s.versionOf i) l.n
      (s.setStation i { st with paint := paint }).openVisit i (.paint l.n l.restart orders)
    else s.openVisit i .poll
  | none => s.openVisit i .poll

/-- R164: the next visit begins, while the loop is RUNNING and no visit is under way. -/
def State.startVisit (s : State) : State :=
  match s.loop.mode, s.loop.visit, s.nextStation with
  | .running, none, some i => s.visit i
  | _, _, _ => s

/-- R166: a whole paint frame has gone: N advances, and a restart mark it carried is cleared. -/
def LoopRecord.frameSent (mark : Bool) (l : LoopRecord) : LoopRecord :=
  { l with n := l.n + 1, restart := l.restart && !mark }

/-- R166: the last octet of the visit's frame has been transmitted; the answer window opens. -/
def State.endFrame (s : State) : State :=
  match s.loop.visit with
  | some x =>
    if x.sent then s
    else
      let s := match x.frame with
        | .poll => s
        | .paint _ mark _ => s.modLink x.station (LoopRecord.frameSent mark)
      { s with loop := { s.loop with visit := some { x with sent := true } } }
  | none => s

/-! ### Misses (R174) -/

/-- R174: the link after the change to OFFLINE. -/
def LoopRecord.wentOffline (l : LoopRecord) : LoopRecord := { l with online := false, a := l.n, missCount := 0 }

/-- R174, R45: a station becomes OFFLINE. No full repaint is set, for a RELEASING station either (R160, assumption 32). -/
def State.goOffline (s : State) (i : StationId) : State :=
  let s := s.raise (.stationOffline i)
  let s := s.modLink i LoopRecord.wentOffline
  if (s.station i).state == .releasing then s.finishReleasing i else s

/-- R174: a miss on an ONLINE station: the miss count, the resynchronisation of a paint visit, and at the limit the
change to OFFLINE. -/
def State.missOnline (s : State) (i : StationId) (paintSent : Bool) (count : Nat) : State :=
  let s := s.modLink i (fun l => { l with missCount := count })
  let s := if paintSent then s.resync i else s
  if s.loop.missLimit ≤ count then s.goOffline i else s

/-- Whether a visit sent a paint frame. -/
def Visit.isPaint (x : Visit) : Bool :=
  match x.frame with
  | .paint _ _ _ => true
  | .poll => false

/-- R174: a miss at the visit `x`, whose frame was transmitted whole. -/
def State.miss (s : State) (x : Visit) : State :=
  match (s.station x.station).link with
  | some l => if l.online then s.missOnline x.station x.isPaint (l.missCount + 1) else s
  | none => s

/-! ### Answers (R169 to R173) -/

/-- R170: an OFFLINE station's good answer brings it ONLINE. -/
def State.comeOnline (s : State) (i : StationId) : State :=
  let s := s.raise (.stationOnline i)
  (s.modLink i (fun l => { l with online := true, restart := true })).setFull i Marker.again

/-- R171: whether the block with this number is among the blocks a consistent answer reports rendered. -/
def rendered (a r : Fin 8) (m : Marker) : Bool :=
  match m with
  | .carried k => decide ((k - a).val < (r - a).val)
  | .owed => false
  | .none => false

/-- R171: whether an answer's E and R agree with the loop record. -/
def LoopRecord.consistent (l : LoopRecord) (e r : Fin 8) : Bool := e == l.n && decide ((r - l.a).val ≤ l.inFlight)

/-- R171: the check of an ONLINE station's E and R. The rendered blocks are reported, and A becomes R. -/
def State.checkNumbers (s : State) (i : StationId) (l : LoopRecord) (e r : Fin 8) : State :=
  if l.consistent e r then
    let s' := if rendered l.a r (s.station i).paint.marker then s.markerRendered i else s
    s'.modLink i (fun l => { l with a := r })
  else s.resync i

/-- R170 to R172: a good answer at a visit to station `i`. -/
def State.goodAnswer (s : State) (i : StationId) (x : Answer) : State :=
  let s := s.modLink i (fun l => { l with missCount := 0 })
  let s := match (s.station i).link with
    | some l => if l.online then s.checkNumbers i l x.e x.r else s.comeOnline i
    | none => s
  (x.keys.foldl (State.deliverKey i) s).endVisit i

/-- R173: a bad answer at the visit `x`. -/
def State.badAnswer (s : State) (x : Visit) : State :=
  let s := s.raise (.lineCheck x.station)
  let s := s.lineCheckError x.station
  (s.miss x).endVisit x.station

/-- R169: the visit that awaits an answer, when there is one. -/
def State.awaiting (s : State) : Option Visit :=
  match s.loop.visit with
  | some x => if x.sent then some x else none
  | none => none

/-- R169: an answer read at the visit under way: handled as good, or as bad where reading failed. -/
def State.answered (s : State) (x : Visit) (a : Option Answer) : State :=
  match a with
  | some a => s.goodAnswer x.station a
  | none => s.badAnswer x

/-- R197: an answer of more than 12 key codes is bad. -/
def goodOrBad (e r : Fin 8) (keys : List Byte) : Option Answer :=
  if keys.length ≤ Config.answerKeys then some { e := e, r := r, keys := keys } else none

/-! ### The commands -/

/-- LOOP_START (R162). -/
def execLoopStart (speed window missLimit : Nat) (s : State) : Host.Outcome State Fault Refusal :=
  .next (s.arrive (fun s g => s.loopStart speed window missLimit g))

/-- LOOP_STOP (R175). -/
def execLoopStop (s : State) : Host.Outcome State Fault Refusal := .next (s.arrive State.loopStop)

/-- LOOP_HOLD_ASSERTED (R176). -/
def execLoopHoldAsserted (s : State) : Host.Outcome State Fault Refusal := .next s.holdAsserted

/-- LOOP_HOLD_DEASSERTED (R177). -/
def execLoopHoldDeasserted (s : State) : Host.Outcome State Fault Refusal := .next s.holdDeasserted

/-- VISIT_START (R164, R165). -/
def execVisitStart (s : State) : Host.Outcome State Fault Refusal := .next s.startVisit

/-- FRAME_TRANSMITTED (R166). -/
def execFrameTransmitted (s : State) : Host.Outcome State Fault Refusal := .next s.endFrame

/-- GOOD_ANSWER (R169 to R172). -/
def execGoodAnswer (e r : Fin 8) (keys : List Byte) (s : State) : Host.Outcome State Fault Refusal :=
  match s.awaiting with
  | some x => .next (s.answered x (goodOrBad e r keys))
  | none => .next s

/-- BAD_ANSWER (R173, R197): the octets of an answer, read and judged. -/
def execBadAnswer (octets : List Byte) (s : State) : Host.Outcome State Fault Refusal :=
  match s.awaiting with
  | some x => .next (s.answered x (readAnswer x.station octets))
  | none => .next s

/-- ANSWER_LINE_IDLE (R197): the line fell idle within an answer, which is bad. -/
def execAnswerLineIdle (s : State) : Host.Outcome State Fault Refusal :=
  match s.awaiting with
  | some x => .next (s.badAnswer x)
  | none => .next s

/-- WINDOW_EXPIRY (R174). -/
def execWindowExpiry (s : State) : Host.Outcome State Fault Refusal :=
  match s.awaiting with
  | some x => .next ((s.miss x).endVisit x.station)
  | none => .next s

end Sys2Proof.Machine
end

