-- ==== Sys2Proof/Machine/Store.lean ====
section
/-! DEFINITION. Form Templates (01): the load staging (R12 to R14), completeness and validity of a staged load (R15, R4
to R10), installation (R16), LOAD ABANDON (R17) and DROP TEMPLATE (R18). -/

namespace Sys2Proof.Machine

/-- 11.2: the kind octets of the loading records. -/
def loadBeginKind : Nat := 0x01
def loadPartKind : Nat := 0x02
def loadEndKind : Nat := 0x03
def loadAbandonKind : Nat := 0x04
def dropTemplateKind : Nat := 0x05

/-! ### LOAD BEGIN (R13) -/

/-- R3: the conditions on a repeat-group definition and the declared row count. -/
def groupOk (g : Group) (rowCount : Nat) : Bool :=
  if g.visible = 0 then rowCount == 0
  else g.visible ≤ 20 && 1 ≤ g.first && g.first + g.visible ≤ 24 && 1 ≤ g.maxRows && g.maxRows ≤ 99
    && 1 ≤ rowCount

/-- R13: whether every declared value is in range. -/
def loadBeginOk (p : LoadBegin) : Bool :=
  1 ≤ p.id && p.id ≤ 250 && p.fixedCount ≤ 128 && p.rowCount ≤ 12 && p.literalCount ≤ 96
    && groupOk p.group p.rowCount && p.literalCount ≤ p.literalTotal && p.literalTotal ≤ 80 * p.literalCount

/-- R3: a group with V of 0 holds g, M and both flags as 0 and clear. -/
def heldGroup (g : Group) : Group :=
  if g.visible = 0 then { first := 0, visible := 0, maxRows := 0, insertAllowed := false, deleteAllowed := false }
  else g

/-- R1: a free entry of the template table. The entries are counted, not placed, so which one a load takes cannot be
told (assumption 6). -/
def State.freeEntry (s : State) : Option EntryId := entryIds.find? (fun e => s.table[e].isNone)

/-- R13: LOAD BEGIN. -/
def State.loadBegin (s : State) (p : LoadBegin) (g : GenId) : State :=
  match s.staging with
  | some _ => s.refuseControl g loadBeginKind .state
  | none =>
    if !loadBeginOk p then s.refuseControl g loadBeginKind .format
    else match s.freeEntry with
      | none => s.refuseControl g loadBeginKind .store
      | some e =>
        if s.freeDefinitions < p.fixedCount + p.rowCount || s.freeLiterals < p.literalTotal then
          s.refuseControl g loadBeginKind .store
        else
          let s : State := { s with staging := some { entry := e, declared := { p with group := heldGroup p.group }
                                                      fixed := [], rowDefs := [], literals := [] } }
          s.answer g (.done loadBeginKind)

/-! ### LOAD PART (R14) -/

/-- R14: add one entry; absent when it would exceed a declared count or T. -/
def Staging.add (x : Staging) (e : LoadEntry) : Option Staging :=
  match e with
  | .field d =>
    if d.rowRegion then
      if x.rowDefs.length < x.declared.rowCount then some { x with rowDefs := x.rowDefs ++ [d] } else none
    else if x.fixed.length < x.declared.fixedCount then some { x with fixed := x.fixed ++ [d] } else none
  | .literal l =>
    if x.literals.length < x.declared.literalCount
        && literalChars x.literals + l.text.length ≤ x.declared.literalTotal then
      some { x with literals := x.literals ++ [l] }
    else none

/-- R14: add the entries of a part in order. -/
def Staging.addAll (x : Staging) : List LoadEntry → Option Staging
  | [] => some x
  | e :: rest => match x.add e with
    | some x => x.addAll rest
    | none => none

/-- R14: LOAD PART. -/
def State.loadPart (s : State) (entries : List LoadEntry) (g : GenId) : State :=
  match s.staging with
  | none => s.refuseControl g loadPartKind .state
  | some x => match x.addAll entries with
    | some x => State.answer { s with staging := some x } g (.done loadPartKind)
    | none => State.refuseControl { s with staging := none } g loadPartKind .load

/-! ### Validity of an entry (R4 to R10) -/

/-- R5: whether an initial text is admissible for its kind and width. -/
def initialOk (d : FieldDef) : Bool :=
  match d.kind with
  | .text => d.initial.length ≤ d.width && d.initial.all isComposerChar
  | .alpha => d.initial.length ≤ d.width && d.initial.all isAlphaChar
  | .numeric _ _ => d.initial.all isComposerChar && (d.initial.isEmpty || (parseEntry (numForm d) d.initial).isSome)
  | .product _ _ _ _ => d.initial.isEmpty
  | .sum _ _ _ => d.initial.isEmpty

/-- R6: whether a limit fits a field. -/
def limitOk (f : NumForm) (limit : Option Int) : Bool :=
  match limit with
  | none => true
  | some m => m.natAbs ≤ f.limit && (f.signed || 0 ≤ m)

/-- R6: min does not exceed max. -/
def limitsOrdered (min max : Option Int) : Bool :=
  match min, max with
  | some lo, some hi => decide (lo ≤ hi)
  | _, _ => true

/-- R6: scale, digit count and limits of a numeric part. -/
def numericOk (d : FieldDef) (p : NumericPart) : Bool :=
  let f := numForm d
  p.scale ≤ 4 && 1 ≤ f.digits && f.digits ≤ 12 && p.scale + 1 ≤ f.digits && limitOk f p.min && limitOk f p.max
    && limitsOrdered p.min p.max

/-- R7: whether an id names a ROW field of kind NUMERIC. -/
def namesNumericRow (rows : List FieldDef) (id : Nat) : Bool :=
  rows.any (fun d => d.id == id && isNumeric d)

/-- R7: whether an id names a ROW field of kind NUMERIC or PRODUCT. -/
def namesSource (rows : List FieldDef) (id : Nat) : Bool :=
  rows.any (fun d => d.id == id && (isNumeric d || isProduct d))

/-- R7: the conditions of every derived definition. -/
def derivedOk (d : FieldDef) (p : NumericPart) (part : DerivedPart) : Bool :=
  d.prot && p.min.isNone && p.max.isNone && part.overflow ≤ 1 && part.report ≤ 1

/-- R6, R7: the conditions a kind brings with it. `rows` is the whole row list: references are judged against the whole
template (R15). -/
def kindOk (rows : List FieldDef) (d : FieldDef) : Bool :=
  match d.kind with
  | .text => true
  | .alpha => true
  | .numeric p policy => numericOk d p && policy ≤ 1
  | .product p a b part =>
    numericOk d p && derivedOk d p part && d.rowRegion && namesNumericRow rows a && namesNumericRow rows b
  | .sum p source part => numericOk d p && derivedOk d p part && !d.rowRegion && namesSource rows source

/-- R4: the position, width and attribute of a definition. A ROW field carries no row (0). -/
def placeOk (g : Group) (d : FieldDef) : Bool :=
  (if d.rowRegion then d.row == 0 else 1 ≤ d.row && d.row ≤ 23 && !isBandRow g d.row)
    && 1 ≤ d.col && d.col ≤ 80 && 1 ≤ d.width && d.width ≤ 80 && d.col + d.width ≤ 81 && d.attr ≤ 4
    && ((numericPart d.kind).isNone || d.width ≤ 14)

/-- R8: entry flags only on an UNPROTECTED definition. -/
def flagsOk (d : FieldDef) : Bool := !d.prot || !(d.mandatoryEntry || d.mandatoryFill || d.autoSkip)

/-- R4 to R8: the conditions a definition meets by itself and against the references it makes. -/
def fieldOk (g : Group) (rows : List FieldDef) (d : FieldDef) : Bool :=
  1 ≤ d.id && d.id ≤ 255 && placeOk g d && kindOk rows d && flagsOk d && initialOk d

/-- R10: whether two runs of columns share one. -/
def colsMeet (col₁ len₁ col₂ len₂ : Nat) : Bool := col₁ < col₂ + len₂ && col₂ < col₁ + len₁

/-- R10: whether a definition overlaps another of its own region. -/
def fieldsMeet (d e : FieldDef) : Bool := d.row == e.row && colsMeet d.col d.width e.col e.width

/-- R10: whether a definition comes after its predecessor in its list. -/
def fieldAfter (e : Option FieldDef) (d : FieldDef) : Bool :=
  match e with
  | none => true
  | some e => Pos.before ⟨e.row, e.col⟩ ⟨d.row, d.col⟩

/-- R4, R10: the definition behind the definitions `earlier` of its own list; `other` are the definitions of an earlier
list, whose ids it may not repeat. -/
def fieldEntryOk (g : Group) (rows other earlier : List FieldDef) (d : FieldDef) : Bool :=
  fieldOk g rows d && !(other ++ earlier).any (fun e => e.id == d.id) && !earlier.any (fieldsMeet d)
    && fieldAfter earlier.getLast? d

/-- R9: the conditions of a literal run. -/
def literalOk (g : Group) (l : LiteralRun) : Bool :=
  1 ≤ l.row && l.row ≤ 23 && !isBandRow g l.row && 1 ≤ l.col && l.col ≤ 80 && 1 ≤ l.text.length
    && l.text.length ≤ 80 && l.col + l.text.length ≤ 81 && l.text.all isComposerChar && l.attr ≤ 4

/-- R9, R10: the run behind the runs `earlier`, on a template with these fixed fields. -/
def literalEntryOk (g : Group) (fixed : List FieldDef) (earlier : List LiteralRun) (l : LiteralRun) : Bool :=
  literalOk g l
    && !fixed.any (fun d => d.row == l.row && colsMeet d.col d.width l.col l.text.length)
    && !earlier.any (fun e => e.row == l.row && colsMeet e.col e.text.length l.col l.text.length)
    && (match earlier.getLast? with
      | none => true
      | some e => Pos.before ⟨e.row, e.col⟩ ⟨l.row, l.col⟩)

/-- The index, from `k`, of the first entry that fails its test against the entries before it. -/
def firstBad {α : Type} (ok : List α → α → Bool) : Nat → List α → List α → Option Nat
  | _, _, [] => none
  | k, earlier, x :: rest => if ok earlier x then firstBad ok (k + 1) (earlier ++ [x]) rest else some k

/-- R15: the index of the first missing entry. -/
def Staging.missing (x : Staging) : Option Nat :=
  let p := x.declared
  if x.fixed.length < p.fixedCount then some (x.fixed.length + 1)
  else if x.rowDefs.length < p.rowCount then some (p.fixedCount + x.rowDefs.length + 1)
  else if x.literals.length < p.literalCount then some (p.fixedCount + p.rowCount + x.literals.length + 1)
  else none

/-- R15: the index of the first offending entry of a complete load. -/
def Staging.invalid (x : Staging) : Option Nat :=
  let g := x.declared.group
  let n := x.fixed.length
  (firstBad (fieldEntryOk g x.rowDefs []) 1 [] x.fixed).or
    ((firstBad (fieldEntryOk g x.rowDefs x.fixed) (n + 1) [] x.rowDefs).or
      (firstBad (literalEntryOk g x.fixed) (n + x.rowDefs.length + 1) [] x.literals))

/-- R15: the offending index of a LOAD END: completeness first, then validity. -/
def Staging.offending (x : Staging) : Option Nat :=
  match x.missing with
  | some k => some k
  | none => x.invalid

/-! ### LOAD END, LOAD ABANDON and DROP TEMPLATE (R15 to R18) -/

/-- The table index of the next version number of an id. -/
def versionIndex (id : Nat) : Fin 250 := Fin.ofNat 250 (id + 249)

/-- R2: the next version number of a template id. -/
def State.nextVersionOf (s : State) (id : Nat) : Nat := s.nextVersion[versionIndex id]

/-- R16: the version record a staged load becomes. -/
def Staging.toVersion (x : Staging) (version : Nat) : TemplateVersion :=
  { id := x.declared.id, version := version, status := .live, useCount := 0, group := x.declared.group
    fixed := x.fixed, rowDefs := x.rowDefs, literals := x.literals }

/-- R16, R19: retire the LIVE version of an id, when it has one. -/
def State.retireLive (s : State) (old : Option EntryId) : State :=
  match old with
  | some e => s.retire e
  | none => s

/-- R16: install a complete and valid load: the old LIVE version is retired, the new one stands in its reserved entry,
and LOADED answers. -/
def State.install (s : State) (x : Staging) (g : GenId) : State :=
  let id := x.declared.id
  let version := s.nextVersionOf id
  let old := s.liveEntry id
  let retired := old.map (fun e => (s.versionAt e).version)
  let s := s.retireLive old
  let s := s.setEntry x.entry (some (x.toVersion version))
  let s : State := { s with staging := none
                            nextVersion := s.nextVersion.set (versionIndex id) ((version + 1) % 256) }
  s.answer g (.loaded id version retired)

/-- R15: abandon a load for its offending index. -/
def State.abandonLimit (s : State) (k : Nat) (g : GenId) : State :=
  State.answer { s with staging := none } g
    (.exception { reason := .limit, target := some (0, loadEndKind), step := none, index := some k })

/-- R15, R16: LOAD END. -/
def State.loadEnd (s : State) (g : GenId) : State :=
  match s.staging with
  | none => s.refuseControl g loadEndKind .state
  | some x => match x.offending with
    | some k => s.abandonLimit k g
    | none => s.install x g

/-- R17: LOAD ABANDON. -/
def State.loadAbandon (s : State) (g : GenId) : State :=
  match s.staging with
  | none => s.refuseControl g loadAbandonKind .state
  | some _ => State.answer { s with staging := none } g (.done loadAbandonKind)

/-- R18: DROP TEMPLATE. -/
def State.dropTemplate (s : State) (id : Nat) (g : GenId) : State :=
  if id < 1 || 250 < id then s.refuseControl g dropTemplateKind .format
  else match s.liveEntry id with
    | none => s.refuseControl g dropTemplateKind .template
    | some e => (s.retire e).answer g (.done dropTemplateKind)

/-! ### The commands -/

/-- LOAD_BEGIN (R13). -/
def execLoadBegin (p : LoadBegin) (s : State) : Host.Outcome State Fault Refusal :=
  .next (s.arrive (fun s g => s.loadBegin p g))

/-- LOAD_PART (R14). -/
def execLoadPart (entries : List LoadEntry) (s : State) : Host.Outcome State Fault Refusal :=
  .next (s.arrive (fun s g => s.loadPart entries g))

/-- LOAD_END (R15). -/
def execLoadEnd (s : State) : Host.Outcome State Fault Refusal := .next (s.arrive State.loadEnd)

/-- LOAD_ABANDON (R17). -/
def execLoadAbandon (s : State) : Host.Outcome State Fault Refusal := .next (s.arrive State.loadAbandon)

/-- DROP_TEMPLATE (R18). -/
def execDropTemplate (id : Nat) (s : State) : Host.Outcome State Fault Refusal :=
  .next (s.arrive (fun s g => s.dropTemplate id g))

end Sys2Proof.Machine
end

