-- ==== Sys2Proof/Machine/Control.lean ====
section
/-! DEFINITION. The Control Unit (10.4 to 10.6): ATTACH and DETACH STATION (R187, R188), the queries (R189, R190) and the
event records (R192, R193). -/

namespace Sys2Proof.Machine

def attachKind : Nat := 0x06
def detachKind : Nat := 0x07
def queryStationKind : Nat := 0x0B
def setEventsKind : Nat := 0x0C
def clearEventsKind : Nat := 0x0D

/-! ### ATTACH STATION (R187, R46, R163, R160) -/

/-- R163: the loop record of a station just attached. -/
def LoopRecord.fresh (window : Nat) : LoopRecord :=
  { online := false, missCount := 0, n := 0, a := 0, restart := true, window := window }

/-- R46, R160, R163: the record of a station just attached. -/
def Station.attachedRecord (window : Nat) : Station :=
  { Station.detachedRecord with
    state := .blank, lock := .none
    paint := Paint.clear.setFull false .none
    link := some (LoopRecord.fresh window) }

/-- R164: the loop after an ATTACH STATION of station `i`: one that runs with no station attached has its next visit go
to `i`, whatever is attached before that visit starts, for the visit order goes on from just below `i`. -/
def State.loopAttached (s : State) (i : StationId) : Loop :=
  if s.loop.mode == .running && s.attachedIds.isEmpty then
    { s.loop with last := if i = 0 then none else some (i - 1) }
  else s.loop

/-- R187: ATTACH STATION. -/
def State.attachStation (s : State) (station window : Nat) (g : GenId) : State :=
  match stationOf station with
  | none => s.refuseControl g attachKind .format
  | some i =>
    if 7 < window then s.refuseControl g attachKind .format
    else if s.attached i then s.refuseControl g attachKind .state
    else
      let s : State := { s with loop := s.loopAttached i }
      (s.setStation i (Station.attachedRecord (orDefault window Config.defaultPaintWindow))).answer g (.done attachKind)

/-! ### DETACH STATION (R188, R47) -/

/-- R188: answer a record of the station with the exception DETACHED in a slot. -/
def State.answerDetached (s : State) (i : StationId) (kind : Nat) (g : GenId) : State :=
  s.refuseRecord i g kind .detached none none

/-- R188 item 1: a COMPOSE with report still in COMPOSING and a RELEASE still RELEASING. -/
def State.detachDeferred (s : State) (i : StationId) : State :=
  let st := s.station i
  let s := match st.reportSlot with
    | some g => s.answerDetached i 0x20 g
    | none => s
  match st.releaseSlot with
  | some g => s.answerDetached i 0x27 g
  | none => s

/-- R188 item 2: the SNAPSHOT record of the station, whose slot takes the READ's exception. -/
def State.detachSnapshot (s : State) (i : StationId) : State :=
  match s.snapshotSlot i with
  | some g => (s.removeRecord (.general g)).answerDetached i 0x26 g
  | none => s

/-- R188 item 2: the ATTENTION record of the station. -/
def State.detachAttention (s : State) (i : StationId) : State :=
  if s.attention[i].isSome then
    let s := s.removeRecord (.attention i)
    { s with attention := s.attention.set i none }
  else s

/-- R188 item 3: the records of the record queue, in queue order. -/
def State.detachQueue (s : State) (i : StationId) : State :=
  (s.station i).records.foldl (fun s q => s.answerDetached i (stationKind q.record) q.slot) s

/-- R188, R47: the station is cleared, and its answers and removals made in the transmit queue in their order. -/
def State.clearStation (s : State) (i : StationId) : State :=
  let s := s.dropContext i
  let s := (((s.detachDeferred i).detachSnapshot i).detachAttention i).detachQueue i
  s.setStation i Station.detachedRecord

/-- R163, R175: a visit to the detached station ends at once and uncounted; a pending stop takes effect with it. With no
visit under way, a stop that waits for the next one takes effect when no station is left to visit (assumption 20). -/
def State.endDetachedVisit (s : State) (i : StationId) : State :=
  match s.loop.visit with
  | some x => if x.station = i then s.endVisit i else s
  | none => if s.attachedIds.isEmpty then s.applyPendingStop else s

/-- R188: DETACH STATION. -/
def State.detachStation (s : State) (station : Nat) (g : GenId) : State :=
  match stationOf station with
  | none => s.refuseControl g detachKind .format
  | some i =>
    if !s.attached i then s.refuseControl g detachKind .state
    else ((s.clearStation i).answer g (.done detachKind)).endDetachedVisit i

/-! ### Queries (R189, R190) -/

/-- R12, R189: the load state as it stands. -/
def Staging.report (x : Staging) : LoadReport :=
  { id := x.declared.id, fixedCount := x.declared.fixedCount, rowCount := x.declared.rowCount
    literalCount := x.declared.literalCount, literalTotal := x.declared.literalTotal
    fixedReceived := x.fixed.length, rowReceived := x.rowDefs.length, literalReceived := x.literals.length
    charsReceived := literalChars x.literals }

/-- R189: the STATUS reply. -/
def State.status (s : State) : StatusReply :=
  { mode := s.loop.mode, speed := s.loop.speed, window := s.loop.window, missLimit := s.loop.missLimit
    freeEntries := s.freeEntries, freeDefinitions := s.freeDefinitions, freeLiterals := s.freeLiterals
    freeRows := s.freeRows, load := s.staging.map Staging.report
    stations := stationIds.map (fun i => (s.station i).state), raw := s.raw, enable := s.enable }

/-- R190: the report of a context. -/
def State.contextReport (s : State) (c : Context) : ContextReport :=
  { id := (s.versionAt c.entry).id, version := (s.versionAt c.entry).version, n := c.rows.length, first := c.first
    cursor := c.cursor }

/-- R190: the report of an attached station. -/
def State.attachedReport (s : State) (st : Station) (l : LoopRecord) : AttachedReport :=
  { lock := st.lock, ctx := st.ctx.map s.contextReport, inFlight := l.inFlight, online := l.online
    missCount := l.missCount, dirty := st.paint.dirty.length, typeAhead := st.typeAhead.length }

/-- R190: the STATION STATUS reply. -/
def State.stationStatus (s : State) (i : StationId) : Inbound :=
  let st := s.station i
  .stationStatus st.state (st.link.map (s.attachedReport st))

/-- R189: QUERY COMPOSER. -/
def State.queryComposer (s : State) (g : GenId) : State := s.answer g (.status s.status)

/-- R190: QUERY STATION. -/
def State.queryStation (s : State) (station : Nat) (g : GenId) : State :=
  match stationOf station with
  | none => s.refuseControl g queryStationKind .format
  | some i => s.answer g (s.stationStatus i)

/-! ### Events (R192, R193) -/

/-- R192: SET EVENTS: the kinds replace the enable set; bits that name no kind are ignored. -/
def State.setEvents (s : State) (kinds : Mask) (g : GenId) : State :=
  (s.updateEvents s.raw (kinds &&& kindBits)).answer g (.done setEventsKind)

/-- R193: the stations a CLEAR EVENTS names: all of them when its station set is absent. -/
def clearedStations (stations : Option Mask) : Mask := stations.getD 0xFFFF#16

/-- R193: CLEAR EVENTS. -/
def State.clearEvents (s : State) (kinds : Mask) (stations : Option Mask) (g : GenId) : State :=
  (s.updateEvents (s.raw.clearNamed kinds (clearedStations stations)) s.enable).answer g (.done clearEventsKind)

/-! ### The commands -/

/-- ATTACH_STATION (R187). -/
def execAttachStation (station window : Nat) (s : State) : Host.Outcome State Fault Refusal :=
  .next (s.arrive (fun s g => s.attachStation station window g))

/-- DETACH_STATION (R188). -/
def execDetachStation (station : Nat) (s : State) : Host.Outcome State Fault Refusal :=
  .next (s.arrive (fun s g => s.detachStation station g))

/-- QUERY_COMPOSER (R189). -/
def execQueryComposer (s : State) : Host.Outcome State Fault Refusal := .next (s.arrive State.queryComposer)

/-- QUERY_STATION (R190). -/
def execQueryStation (station : Nat) (s : State) : Host.Outcome State Fault Refusal :=
  .next (s.arrive (fun s g => s.queryStation station g))

/-- SET_EVENTS (R192). -/
def execSetEvents (kinds : Mask) (s : State) : Host.Outcome State Fault Refusal :=
  .next (s.arrive (fun s g => s.setEvents kinds g))

/-- CLEAR_EVENTS (R193). -/
def execClearEvents (kinds : Mask) (stations : Option Mask) (s : State) : Host.Outcome State Fault Refusal :=
  .next (s.arrive (fun s g => s.clearEvents kinds stations g))

end Sys2Proof.Machine
end

