-- ==== Sys2Proof/Machine/Power.lean ====
section
/-! DEFINITION. Start-up and the resets (10.7): power-on and the reset input (R195), RESET COMPOSER (R194). -/

namespace Sys2Proof.Machine

/-! ### The start-up condition (R195) -/

/-- R195: every block in its start-up condition, STARTED not yet raised. The LOOP HOLD input keeps the level it is
driven at, and the queue of commands is the model's own. -/
def State.startUp (s : State) : State :=
  { State.reset with
    pending := s.pending, holdInput := s.holdInput, resetInput := s.resetInput, cuts := s.cuts, tx := s.tx
    raw := RawEvents.empty, event := .empty, waiting := [] }

/-- R195: power-on: the start-up condition, the transmitter idle, and STARTED raised. -/
def State.powerOn (s : State) : State :=
  State.raise { s.startUp with tx := .idle, resetInput := false } .started

/-- R195, R186: the reset input is asserted: a record in transmission is cut and every block takes its start-up
condition; the completion of the cut frame outlasts the reset. -/
def State.assertReset (s : State) : State := { s.cut.startUp with resetInput := true }

/-- R195: the reset input is released: STARTED is raised and the receiver hunts. -/
def State.releaseReset (s : State) : State :=
  if s.resetInput then State.raise { s with resetInput := false } .started else s

/-! ### RESET COMPOSER (R194) -/

/-- R194, R22: a table entry after RESET COMPOSER: a LIVE version kept with use count 0, a RETIRED one gone. -/
def keptLive (o : Option TemplateVersion) : Option TemplateVersion :=
  match o with
  | some v => match v.status with
    | .live => some { v with useCount := 0 }
    | .retired => none
  | none => none

/-- R194: RESET COMPOSER before STARTED is raised. -/
def State.cleared (s : State) : State :=
  let s := s.cut
  { s with
    rx := .hunting, general := Vector.replicate 24 .free, attention := Vector.replicate 16 none, event := .empty
    waiting := [], raw := RawEvents.empty, staging := none, table := mapVec keptLive s.table
    freeRows := Config.rowPool, stations := Vector.replicate 16 Station.detachedRecord, loop := Loop.stoppedDefault }

/-- R194: RESET COMPOSER. It has no answer: its own slot is freed with every other. -/
def State.resetComposer (s : State) (_g : GenId) : State := s.cleared.raise .started

/-! ### The commands -/

/-- POWER_ON (R195). -/
def execPowerOn (s : State) : Host.Outcome State Fault Refusal := .next s.powerOn

/-- RESET_INPUT_ASSERTED (R195). -/
def execResetInputAsserted (s : State) : Host.Outcome State Fault Refusal := .next s.assertReset

/-- RESET_INPUT_RELEASED (R195). -/
def execResetInputReleased (s : State) : Host.Outcome State Fault Refusal := .next s.releaseReset

/-- RESET_COMPOSER (R194). -/
def execResetComposer (s : State) : Host.Outcome State Fault Refusal := .next (s.arrive State.resetComposer)

end Sys2Proof.Machine
end

