-- ==== Sys2Proof/Machine/Records.lean ====
section
/-! DEFINITION. The station records and the frames that carry them: the routing of a frame (R181), FRAME_REFUSED, and the
meanings of the records of chapter 06 as they arrive for a station. -/

namespace Sys2Proof.Machine

/-! ### Executing and routing (R181) -/

/-- R181: the Control Unit executes a decoded control record in its slot. -/
def State.execControl (s : State) (r : ControlRecord) (g : GenId) : State :=
  match r with
  | .loadBegin p => s.loadBegin p g
  | .loadPart entries => s.loadPart entries g
  | .loadEnd => s.loadEnd g
  | .loadAbandon => s.loadAbandon g
  | .dropTemplate id => s.dropTemplate id g
  | .attachStation station window => s.attachStation station window g
  | .detachStation station => s.detachStation station g
  | .loopStart speed window missLimit => s.loopStart speed window missLimit g
  | .loopStop => s.loopStop g
  | .queryComposer => s.queryComposer g
  | .queryStation station => s.queryStation station g
  | .setEvents kinds => s.setEvents kinds g
  | .clearEvents kinds stations => s.clearEvents kinds stations g
  | .resetComposer => s.resetComposer g

/-- R181 check 1: the check octets are correct and the length was no mismatch. -/
def frameSound (f : TrunkFrame) : Bool :=
  f.length.toNat ≤ Config.outboundPayload && f.payload.length == f.length.toNat
    && f.check == crc16 (checkedOctets f.address f.kind f.payload)

/-- R181, R182: the exception of a frame refused by its check: it names no station and no kind. -/
def State.refuseFrame (s : State) (g : GenId) : State :=
  s.answer g (.exception { reason := .frame, target := none, step := none, index := none })

/-- R181, R185: the exception of a frame to an address above 16: it leaves with address 0 and names the address. -/
def State.refuseAddress (s : State) (f : TrunkFrame) (g : GenId) : State :=
  s.answer g (.exception { reason := .address, target := some (f.address.toNat, f.kind.toNat), step := none
                           index := none })

/-- R181: a frame for station `i`. -/
def State.routeStation (s : State) (i : StationId) (f : TrunkFrame) (g : GenId) : State :=
  match decodeStation f.kind.toNat f.payload with
  | some r => s.arriveStation i r g
  | none => s.refuseRecord i g f.kind.toNat .format none none

/-- R181: a frame for the Control Unit. -/
def State.routeControl (s : State) (f : TrunkFrame) (g : GenId) : State :=
  match decodeControl f.kind.toNat f.payload with
  | some r => s.execControl r g
  | none => s.refuseControl g f.kind.toNat .format

/-- R181: the checks of an arriving reserved frame, in order, and its routing when none fails. -/
def State.routeFrame (s : State) (f : TrunkFrame) (g : GenId) : State :=
  if !frameSound f then s.refuseFrame g
  else if f.address.toNat = 0 then s.routeControl f g
  else match stationOf f.address.toNat with
    | some i => s.routeStation i f g
    | none => s.refuseAddress f g

/-- FRAME_REFUSED (R181): the arrival of a frame, refused by the first check it fails. -/
def execFrameRefused (f : TrunkFrame) (s : State) : Host.Outcome State Fault Refusal :=
  .next (s.arrive (fun s g => s.routeFrame f g))

/-! ### Station records (06) -/

/-- R181, R34: the arrival of a station record. -/
def State.arriveRecord (s : State) (i : StationId) (r : StationRecord) : State :=
  s.arrive (fun s g => s.arriveStation i r g)

/-- COMPOSE (R113). -/
def execCompose (i : StationId) (c : ComposeRec) (s : State) : Host.Outcome State Fault Refusal :=
  .next (s.arriveRecord i (.compose c))

/-- SET (R116): a FILL of one SET entry. -/
def execSet (i : StationId) (ref : FieldRef) (text : Text) (s : State) : Host.Outcome State Fault Refusal :=
  .next (s.arriveRecord i (.fill [.set ref text] false false))

/-- APPEND_ROW (R119): a FILL of one APPEND ROW entry. -/
def execAppendRow (i : StationId) (row : RowEntry) (s : State) : Host.Outcome State Fault Refusal :=
  .next (s.arriveRecord i (.fill [.appendRow row] false false))

/-- INSERT_ROW (R119): a FILL of one INSERT ROW entry. -/
def execInsertRow (i : StationId) (position : Nat) (row : RowEntry) (s : State) : Host.Outcome State Fault Refusal :=
  .next (s.arriveRecord i (.fill [.insertRow position row] false false))

/-- DELETE_ROW (R120): a FILL of one DELETE ROW entry. -/
def execDeleteRow (i : StationId) (position : Nat) (s : State) : Host.Outcome State Fault Refusal :=
  .next (s.arriveRecord i (.fill [.deleteRow position] false false))

/-- TAG_ROW (R121): a FILL of one TAG ROW entry. -/
def execTagRow (i : StationId) (position tag : Nat) (s : State) : Host.Outcome State Fault Refusal :=
  .next (s.arriveRecord i (.fill [.tagRow position tag] false false))

/-- CURSOR (R122): a FILL of one CURSOR entry. -/
def execCursor (i : StationId) (ref : FieldRef) (s : State) : Host.Outcome State Fault Refusal :=
  .next (s.arriveRecord i (.fill [.cursor ref] false false))

/-- CLEAR_MODIFIED (R124): a FILL with the CLEAR MODIFIED option. -/
def execClearModified (i : StationId) (entries : List FillEntry) (unlock : Bool) (s : State) :
    Host.Outcome State Fault Refusal :=
  .next (s.arriveRecord i (.fill entries unlock true))

/-- NOTE (R125). -/
def execNote (i : StationId) (alarm : Bool) (text : Text) (s : State) : Host.Outcome State Fault Refusal :=
  .next (s.arriveRecord i (.note alarm text))

/-- LOCK (R126). -/
def execLock (i : StationId) (s : State) : Host.Outcome State Fault Refusal := .next (s.arriveRecord i .lock)

/-- UNLOCK (R127). -/
def execUnlock (i : StationId) (s : State) : Host.Outcome State Fault Refusal := .next (s.arriveRecord i .unlock)

/-- RESET_MODIFIED (R128). -/
def execResetModified (i : StationId) (s : State) : Host.Outcome State Fault Refusal :=
  .next (s.arriveRecord i .resetModified)

/-- READ (R129). -/
def execRead (i : StationId) (s : State) : Host.Outcome State Fault Refusal := .next (s.arriveRecord i .read)

/-- RELEASE (R130). -/
def execRelease (i : StationId) (s : State) : Host.Outcome State Fault Refusal := .next (s.arriveRecord i .release)

/-- RECORD_JOINS_QUEUE (R181, R34): any station record, as its frame arrives. -/
def execRecordJoinsQueue (i : StationId) (r : StationRecord) (s : State) : Host.Outcome State Fault Refusal :=
  .next (s.arriveRecord i r)

end Sys2Proof.Machine
end

