-- ==== Sys2Proof/Machine/Dispatch.lean ====
section
/-! DEFINITION. One arm for each command, in the order of spec/opcode_table.json. -/

namespace Sys2Proof.Machine

def exec (i : Instr) (s : State) : Host.Outcome State Fault Refusal :=
  match i with
  | .powerOn => Sys2Proof.Machine.execPowerOn s
  | .resetInputAsserted => Sys2Proof.Machine.execResetInputAsserted s
  | .resetInputReleased => Sys2Proof.Machine.execResetInputReleased s
  | .loopHoldAsserted => Sys2Proof.Machine.execLoopHoldAsserted s
  | .loopHoldDeasserted => Sys2Proof.Machine.execLoopHoldDeasserted s
  | .firstOctet => Sys2Proof.Machine.execFirstOctet s
  | .frameRefused frame => Sys2Proof.Machine.execFrameRefused frame s
  | .loadBegin p => Sys2Proof.Machine.execLoadBegin p s
  | .loadPart entries => Sys2Proof.Machine.execLoadPart entries s
  | .loadEnd => Sys2Proof.Machine.execLoadEnd s
  | .loadAbandon => Sys2Proof.Machine.execLoadAbandon s
  | .dropTemplate id => Sys2Proof.Machine.execDropTemplate id s
  | .attachStation station window => Sys2Proof.Machine.execAttachStation station window s
  | .detachStation station => Sys2Proof.Machine.execDetachStation station s
  | .loopStart speed window missLimit => Sys2Proof.Machine.execLoopStart speed window missLimit s
  | .loopStop => Sys2Proof.Machine.execLoopStop s
  | .queryComposer => Sys2Proof.Machine.execQueryComposer s
  | .queryStation station => Sys2Proof.Machine.execQueryStation station s
  | .setEvents kinds => Sys2Proof.Machine.execSetEvents kinds s
  | .clearEvents kinds stations => Sys2Proof.Machine.execClearEvents kinds stations s
  | .resetComposer => Sys2Proof.Machine.execResetComposer s
  | .compose k c => Sys2Proof.Machine.execCompose k c s
  | .set k ref text => Sys2Proof.Machine.execSet k ref text s
  | .appendRow k row => Sys2Proof.Machine.execAppendRow k row s
  | .insertRow k position row => Sys2Proof.Machine.execInsertRow k position row s
  | .deleteRow k position => Sys2Proof.Machine.execDeleteRow k position s
  | .tagRow k position tag => Sys2Proof.Machine.execTagRow k position tag s
  | .cursor k ref => Sys2Proof.Machine.execCursor k ref s
  | .clearModified k entries unlock => Sys2Proof.Machine.execClearModified k entries unlock s
  | .note k alarm text => Sys2Proof.Machine.execNote k alarm text s
  | .lock k => Sys2Proof.Machine.execLock k s
  | .unlock k => Sys2Proof.Machine.execUnlock k s
  | .resetModified k => Sys2Proof.Machine.execResetModified k s
  | .read k => Sys2Proof.Machine.execRead k s
  | .release k => Sys2Proof.Machine.execRelease k s
  | .transmissionStart => Sys2Proof.Machine.execTransmissionStart s
  | .lastOctetTransmitted => Sys2Proof.Machine.execLastOctetTransmitted s
  | .visitStart => Sys2Proof.Machine.execVisitStart s
  | .frameTransmitted => Sys2Proof.Machine.execFrameTransmitted s
  | .goodAnswer e r keys => Sys2Proof.Machine.execGoodAnswer e r keys s
  | .badAnswer octets => Sys2Proof.Machine.execBadAnswer octets s
  | .answerLineIdle => Sys2Proof.Machine.execAnswerLineIdle s
  | .windowExpiry => Sys2Proof.Machine.execWindowExpiry s
  | .secondOctetNotStartPattern => Sys2Proof.Machine.execSecondOctetNotStartPattern s
  | .recordJoinsQueue k record => Sys2Proof.Machine.execRecordJoinsQueue k record s

end Sys2Proof.Machine
end

