-- ==== Sys2Proof/WellFormed.lean ====
section
/-! DEFINITION. Well-formed commands: every number fits the octets 11.1 and 11.2 give it, every list and text fits its
count octet, a payload fits the trunk, and a frame's payload has the length it declares. The ranges the rules check
(R4 to R10, R13, R110 and the others) are no part of this: a value outside them arrives and is judged by its owner. -/

namespace Sys2Proof

/-- A number of one octet. -/
def octetOk (n : Nat) : Bool := n < 256

/-- A number of two octets. -/
def wordOk (n : Nat) : Bool := n < 65536

/-- A text behind its length octet. -/
def textOk (t : Text) : Bool := t.length < 256

/-- A list behind its entry count. -/
def listOk {α : Type} (entry : α → Bool) (l : List α) : Bool := l.length < 256 && l.all entry

/-- A limit mantissa of six octets in two's complement. -/
def mantissaOk (x : Option Int) : Bool :=
  match x with
  | none => true
  | some m => decide (-(2 ^ 47) ≤ m) && decide (m < 2 ^ 47)

def numericPartOk (p : NumericPart) : Bool := octetOk p.scale && mantissaOk p.min && mantissaOk p.max

def derivedPartOk (d : DerivedPart) : Bool := octetOk d.overflow && octetOk d.report

def kindPartsOk (k : FieldKind) : Bool :=
  match k with
  | .text => true
  | .alpha => true
  | .numeric p policy => numericPartOk p && octetOk policy
  | .product p a b d => numericPartOk p && octetOk a && octetOk b && derivedPartOk d
  | .sum p source d => numericPartOk p && octetOk source && derivedPartOk d

def FieldDef.wf (d : FieldDef) : Bool :=
  octetOk d.id && kindPartsOk d.kind && octetOk d.attr && octetOk d.row && octetOk d.col && octetOk d.width
    && textOk d.initial

def LiteralRun.wf (l : LiteralRun) : Bool := octetOk l.row && octetOk l.col && octetOk l.attr && textOk l.text

def LoadEntry.wf (e : LoadEntry) : Bool :=
  match e with
  | .field d => d.wf
  | .literal l => l.wf

def Group.wf (g : Group) : Bool := octetOk g.first && octetOk g.visible && octetOk g.maxRows

def LoadBegin.wf (p : LoadBegin) : Bool :=
  octetOk p.id && p.group.wf && octetOk p.fixedCount && octetOk p.rowCount && octetOk p.literalCount
    && wordOk p.literalTotal

def ValueEntry.wf (x : ValueEntry) : Bool := octetOk x.id && textOk x.text

def RowEntry.wf (x : RowEntry) : Bool := wordOk x.tag && listOk ValueEntry.wf x.values

def FieldRef.wf (x : FieldRef) : Bool := octetOk x.id && octetOk x.position

def ComposeRec.wf (c : ComposeRec) : Bool :=
  octetOk c.id && c.cursor.wf && listOk ValueEntry.wf c.fixed && listOk RowEntry.wf c.rows

def FillEntry.wf (e : FillEntry) : Bool :=
  match e with
  | .set ref text => ref.wf && textOk text
  | .appendRow row => row.wf
  | .insertRow position row => octetOk position && row.wf
  | .deleteRow position => octetOk position
  | .tagRow position tag => octetOk position && wordOk tag
  | .cursor ref => ref.wf

/-- The parts of a station record. -/
def StationRecord.partsOk (r : StationRecord) : Bool :=
  match r with
  | .compose c => c.wf
  | .fill entries _ _ => listOk FillEntry.wf entries
  | .note _ text => textOk text
  | .lock => true
  | .unlock => true
  | .resetModified => true
  | .read => true
  | .release => true

/-- The parts of a control record. -/
def ControlRecord.partsOk (r : ControlRecord) : Bool :=
  match r with
  | .loadBegin p => p.wf
  | .loadPart entries => listOk LoadEntry.wf entries
  | .loadEnd => true
  | .loadAbandon => true
  | .dropTemplate id => octetOk id
  | .attachStation station window => octetOk station && octetOk window
  | .detachStation station => octetOk station
  | .loopStart speed window missLimit => octetOk speed && octetOk window && octetOk missLimit
  | .loopStop => true
  | .queryComposer => true
  | .queryStation station => octetOk station
  | .setEvents _ => true
  | .clearEvents _ _ => true
  | .resetComposer => true

/-- R179: a payload the trunk carries has at most 4,096 octets. -/
def payloadOk (l : List Byte) : Bool := l.length ≤ Config.outboundPayload

def StationRecord.wf (r : StationRecord) : Bool := r.partsOk && payloadOk (encodeStation r)

def ControlRecord.wf (r : ControlRecord) : Bool := r.partsOk && payloadOk (encodeControl r)

/-- R179: the receiver reads as many payload octets as the length declares, and none above 4,096. -/
def TrunkFrame.wf (f : TrunkFrame) : Bool :=
  if f.length.toNat ≤ Config.outboundPayload then f.payload.length == f.length.toNat else f.payload.isEmpty

/-- R197: a good answer carries at most 12 key codes. -/
def answerOk (keys : List Byte) : Bool := keys.length ≤ Config.answerKeys

/-- Whether a command is one the part can be given. -/
def Instr.wf (i : Instr) : Bool :=
  match i with
  | .powerOn => true
  | .resetInputAsserted => true
  | .resetInputReleased => true
  | .loopHoldAsserted => true
  | .loopHoldDeasserted => true
  | .firstOctet => true
  | .frameRefused frame => frame.wf
  | .loadBegin p => (ControlRecord.loadBegin p).wf
  | .loadPart entries => (ControlRecord.loadPart entries).wf
  | .loadEnd => true
  | .loadAbandon => true
  | .dropTemplate id => (ControlRecord.dropTemplate id).wf
  | .attachStation station window => (ControlRecord.attachStation station window).wf
  | .detachStation station => (ControlRecord.detachStation station).wf
  | .loopStart speed window missLimit => (ControlRecord.loopStart speed window missLimit).wf
  | .loopStop => true
  | .queryComposer => true
  | .queryStation station => (ControlRecord.queryStation station).wf
  | .setEvents _ => true
  | .clearEvents _ _ => true
  | .resetComposer => true
  | .compose _ c => (StationRecord.compose c).wf
  | .set _ ref text => (StationRecord.fill [.set ref text] false false).wf
  | .appendRow _ row => (StationRecord.fill [.appendRow row] false false).wf
  | .insertRow _ position row => (StationRecord.fill [.insertRow position row] false false).wf
  | .deleteRow _ position => (StationRecord.fill [.deleteRow position] false false).wf
  | .tagRow _ position tag => (StationRecord.fill [.tagRow position tag] false false).wf
  | .cursor _ ref => (StationRecord.fill [.cursor ref] false false).wf
  | .clearModified _ entries opens => (StationRecord.fill entries opens true).wf
  | .note _ alarm text => (StationRecord.note alarm text).wf
  | .lock _ => true
  | .unlock _ => true
  | .resetModified _ => true
  | .read _ => true
  | .release _ => true
  | .transmissionStart => true
  | .lastOctetTransmitted => true
  | .visitStart => true
  | .frameTransmitted => true
  | .goodAnswer _ _ keys => answerOk keys
  | .badAnswer _ => true
  | .answerLineIdle => true
  | .windowExpiry => true
  | .secondOctetNotStartPattern => true
  | .recordJoinsQueue _ r => r.wf

end Sys2Proof
end

