-- ==== Sys2Proof/Safety.lean ====
section
/-! DEFINITION. The terms the claims are stated in: a frame received, a station ready to take a record, an act confined
to one station, and the laws that the chapters state of the whole part. -/

namespace Sys2Proof.Machine

/-! ### Frames and answers -/

/-- R180: the receiver is in a frame that has reserved general slot `g`. -/
def Receiving (s : State) (g : GenId) : Prop := s.resetInput = false ∧ s.rx = .frame (some g)

/-- R180: the receiver is in a frame that found no general slot free. -/
def Discarding (s : State) : Prop := s.resetInput = false ∧ s.rx = .frame none

/-- The state with the receiver hunting: the frame has arrived. -/
def State.hunting (s : State) : State := { s with rx := .hunting }

/-- The state after a frame whose one effect is the record placed in its slot (R183, R185). -/
def State.replied (s : State) (g : GenId) (address : Nat) (r : Inbound) : State :=
  { s with rx := .hunting, general := s.general.set g (.occupied address r), waiting := s.waiting ++ [.general g] }

/-- An exception without step and index that answers a control record. -/
def controlException (reason : Reason) (kind : Nat) : Inbound :=
  .exception { reason := reason, target := some (0, kind), step := none, index := none }

/-- An exception that answers a record of station `i`. -/
def stationException (i : StationId) (kind : Nat) (reason : Reason) (step index : Option Nat) : Inbound :=
  .exception { reason := reason, target := some (stationNumber i, kind), step := step, index := index }

/-- The commands that are the arrival of a trunk frame. -/
def isFrame (c : Instr) : Bool :=
  match c with
  | .powerOn => false
  | .resetInputAsserted => false
  | .resetInputReleased => false
  | .loopHoldAsserted => false
  | .loopHoldDeasserted => false
  | .firstOctet => false
  | .transmissionStart => false
  | .lastOctetTransmitted => false
  | .visitStart => false
  | .frameTransmitted => false
  | .goodAnswer _ _ _ => false
  | .badAnswer _ => false
  | .answerLineIdle => false
  | .windowExpiry => false
  | .secondOctetNotStartPattern => false
  | _ => true

/-- The command a decoded control record is (R181). -/
def controlCommand (r : ControlRecord) : Instr :=
  match r with
  | .loadBegin p => .loadBegin p
  | .loadPart entries => .loadPart entries
  | .loadEnd => .loadEnd
  | .loadAbandon => .loadAbandon
  | .dropTemplate id => .dropTemplate id
  | .attachStation station window => .attachStation station window
  | .detachStation station => .detachStation station
  | .loopStart speed window missLimit => .loopStart speed window missLimit
  | .loopStop => .loopStop
  | .queryComposer => .queryComposer
  | .queryStation station => .queryStation station
  | .setEvents kinds => .setEvents kinds
  | .clearEvents kinds stations => .clearEvents kinds stations
  | .resetComposer => .resetComposer

/-! ### Events -/

/-- R191: whether a member is in a raw set. -/
def RawEvents.has (r : RawEvents) (e : Event) : Bool :=
  match e with
  | .started => r.flags.getLsbD 0
  | .loopHoldOn => r.flags.getLsbD 5
  | .loopHoldOff => r.flags.getLsbD 6
  | .poolLow => r.flags.getLsbD 7
  | .templateFreed => r.flags.getLsbD 8
  | .stationOffline i => r.offline.getLsbD i.val
  | .stationOnline i => r.online.getLsbD i.val
  | .lineCheck i => r.lineCheck.getLsbD i.val
  | .typeAheadOverrun i => r.overrun.getLsbD i.val

/-- The station of a member of a station kind. -/
def Event.station (e : Event) : Option StationId :=
  match e with
  | .stationOffline i => some i
  | .stationOnline i => some i
  | .lineCheck i => some i
  | .typeAheadOverrun i => some i
  | .started => none
  | .loopHoldOn => none
  | .loopHoldOff => none
  | .poolLow => none
  | .templateFreed => none

/-- The event slot and the waiting records once the reported set has gained a member (R192). -/
def NoticePlaced (s t : State) : Prop :=
  match s.event with
  | .empty => t.event = .waiting ∧ t.waiting = s.waiting ++ [.event]
  | .waiting => t.event = .waiting ∧ t.waiting = s.waiting
  | .sending => t.event = .sendingOwed ∧ t.waiting = s.waiting
  | .sendingOwed => t.event = .sendingOwed ∧ t.waiting = s.waiting

/-- What the part is, but for its events, the event slot and the waiting records. -/
def SameButEvents (s t : State) : Prop :=
  t = { s with raw := t.raw, event := t.event, waiting := t.waiting }

/-- R191, R196: the flags of the raw set are those of the non-station kinds, and only kinds are enabled. -/
def EventLaw (s : State) : Prop := s.raw.flags &&& ~~~0x01E1#16 = 0#16 ∧ s.enable &&& ~~~0x01FF#16 = 0#16

/-! ### The slots of a station's records -/

/-- The general slots that R188 answers DETACHED for station `i`, in its order: a COMPOSE with report, a RELEASE, the
SNAPSHOT of a READ, and the records of the queue. -/
def detachedSlots (s : State) (i : StationId) : List GenId :=
  (s.station i).reportSlot.toList ++ (s.station i).releaseSlot.toList ++ (s.snapshotSlot i).toList
    ++ (s.station i).records.map Queued.slot

/-- R45, R175: the slots of the RELEASE records of the RELEASING stations, in ascending order of station. -/
def releasingSlots (s : State) : List GenId :=
  stationIds.filterMap (fun i => if (s.station i).state = .releasing then (s.station i).releaseSlot else none)

/-- The code value of an enumerated value: its place in the order in which 11.3 lists them, from 0 (R196). -/
def codeIn {α : Type} [DecidableEq α] (l : List α) (x : α) : Byte := octet (l.idxOf x)

/-! ### The loop -/

/-- R164: the station of the next visit: the lowest attached one above the last visited, else the lowest attached. -/
def NextInOrder (s : State) (i : StationId) : Prop :=
  (s.station i).state ≠ .detached ∧
    match s.loop.last with
    | some j => (j < i ∧ ∀ k, (s.station k).state ≠ .detached → j < k → i ≤ k)
        ∨ (∀ k, (s.station k).state ≠ .detached → k ≤ j ∧ i ≤ k)
    | none => ∀ k, (s.station k).state ≠ .detached → i ≤ k

/-- R169: a visit to station `i` awaits its answer, its frame transmitted whole. -/
def Awaiting (s : State) (i : StationId) (f : LoopFrame) : Prop :=
  s.loop.visit = some { station := i, frame := f, sent := true }

/-- R164: the loop after a visit to station `i`, with no stop pending. -/
def Loop.visited (l : Loop) (i : StationId) : Loop := { l with visit := none, last := some i }

/-- R151: the paint state after a full repaint that the Loop Controller asks for. -/
def Station.repaint (st : Station) : Paint :=
  { dirty := [], resume := some .clear, band := none, cursorPending := st.ctx.isSome, alarm := st.paint.alarm
    marker := match st.paint.marker with
      | .none => .none
      | .owed => .owed
      | .carried _ => .owed }

/-! ### Templates -/

/-- R10: two runs of columns share none. -/
def Apart (col₁ len₁ col₂ len₂ : Nat) : Prop := col₁ + len₁ ≤ col₂ ∨ col₂ + len₂ ≤ col₁

/-- R75, R10: the place of an entry comes before the place of another, in screen order. -/
def Earlier (row₁ col₁ row₂ col₂ : Nat) : Prop := row₁ < row₂ ∨ row₁ = row₂ ∧ col₁ < col₂

/-- R3: a screen row of the band of a group. -/
def InBand (g : Group) (row : Nat) : Prop := g.first ≤ row ∧ row < g.first + g.visible

/-- R4, R8: the ranges of a field definition and its entry flags. -/
def SoundField (d : FieldDef) : Prop :=
  1 ≤ d.id ∧ d.id ≤ 255 ∧ 1 ≤ d.col ∧ 1 ≤ d.width ∧ d.col + d.width ≤ 81 ∧ d.attr ≤ 4
    ∧ (d.prot = true → d.mandatoryEntry = false ∧ d.mandatoryFill = false ∧ d.autoSkip = false)
    ∧ d.initial.length ≤ d.width

/-- R5: what a kind asks of an initial text: its characters, a well-formed numeric entry when there is a text, or none. -/
def SoundInitial (d : FieldDef) : Prop :=
  match d.kind with
  | .text => ∀ c ∈ d.initial, 0x20 ≤ c.toNat ∧ c.toNat ≤ 0x7E
  | .alpha => ∀ c ∈ d.initial, isAlphaChar c = true
  | .numeric p _ => d.initial ≠ [] →
      (parseEntry { width := d.width, signed := p.signed, scale := p.scale } d.initial).isSome = true
  | .product _ _ _ _ => d.initial = []
  | .sum _ _ _ => d.initial = []

/-- R6: the numeric part of a definition with digit count `n`. -/
def SoundNumber (d : FieldDef) (p : NumericPart) : Prop :=
  let n := d.width - (if p.signed then 1 else 0) - (if 0 < p.scale then 1 else 0)
  d.width ≤ 14 ∧ p.scale ≤ 4 ∧ n ≤ 12 ∧ p.scale + 1 ≤ n
    ∧ (∀ m, p.min = some m ∨ p.max = some m → m.natAbs ≤ 10 ^ n - 1 ∧ (p.signed = false → 0 ≤ m))
    ∧ ∀ lo hi, p.min = some lo → p.max = some hi → lo ≤ hi

/-- R7: a row field definition with the id stands in the list, of kind NUMERIC, or with `orProduct` of kind PRODUCT. -/
def NamesRowField (rows : List FieldDef) (id : Nat) (orProduct : Bool) : Prop :=
  ∃ d ∈ rows, d.id = id ∧ ((∃ p policy, d.kind = .numeric p policy)
    ∨ orProduct = true ∧ ∃ p a b part, d.kind = .product p a b part)

/-- R6, R7: what the kind of a definition asks. -/
def SoundKind (rows : List FieldDef) (d : FieldDef) : Prop :=
  match d.kind with
  | .text => True
  | .alpha => True
  | .numeric p policy => SoundNumber d p ∧ policy ≤ 1
  | .product p a b part => SoundNumber d p ∧ p.min = none ∧ p.max = none ∧ d.prot = true ∧ d.rowRegion = true
      ∧ part.overflow ≤ 1 ∧ part.report ≤ 1 ∧ NamesRowField rows a false
      ∧ NamesRowField rows b false
  | .sum p source part => SoundNumber d p ∧ p.min = none ∧ p.max = none ∧ d.prot = true ∧ d.rowRegion = false
      ∧ part.overflow ≤ 1 ∧ part.report ≤ 1 ∧ NamesRowField rows source true

/-- R4: the screen row of a definition: outside the band for a FIXED field; a ROW field carries no row, held as 0
(assumption 12). -/
def SoundRow (g : Group) (d : FieldDef) : Prop :=
  if d.rowRegion = true then d.row = 0 else 1 ≤ d.row ∧ d.row ≤ 23 ∧ ¬InBand g d.row

/-- R4 to R10: entries that each meet the conditions of LOAD END, by themselves, in the references they make to the row
definitions `refs`, and against one another. -/
structure SoundEntries (g : Group) (refs fixed rows : List FieldDef) (literals : List LiteralRun) : Prop where
  ids : ((fixed ++ rows).map FieldDef.id).Nodup
  fields : ∀ d ∈ fixed ++ rows, SoundField d ∧ SoundRow g d ∧ SoundKind refs d ∧ SoundInitial d
  runs : ∀ l ∈ literals, 1 ≤ l.row ∧ l.row ≤ 23 ∧ ¬InBand g l.row ∧ 1 ≤ l.col ∧ 1 ≤ l.text.length
    ∧ l.text.length ≤ 80 ∧ l.col + l.text.length ≤ 81 ∧ l.attr ≤ 4
    ∧ ∀ c ∈ l.text, 0x20 ≤ c.toNat ∧ c.toNat ≤ 0x7E
  fixedOrder : fixed.Pairwise (fun d e => Earlier d.row d.col e.row e.col
    ∧ (d.row = e.row → Apart d.col d.width e.col e.width))
  rowOrder : rows.Pairwise (fun d e => Earlier d.row d.col e.row e.col
    ∧ (d.row = e.row → Apart d.col d.width e.col e.width))
  runOrder : literals.Pairwise (fun l m => Earlier l.row l.col m.row m.col
    ∧ (l.row = m.row → Apart l.col l.text.length m.col m.text.length))
  runsApart : ∀ d ∈ fixed, ∀ l ∈ literals, d.row = l.row → Apart d.col d.width l.col l.text.length

/-- R4 to R10: a template whose every entry meets the conditions of LOAD END. -/
abbrev SoundTemplate (g : Group) (fixed rows : List FieldDef) (literals : List LiteralRun) : Prop :=
  SoundEntries g rows fixed rows literals

/-- R15: a staged load holds no fewer entries than it declares. -/
def Complete (x : Staging) : Prop :=
  x.declared.fixedCount ≤ x.fixed.length ∧ x.declared.rowCount ≤ x.rowDefs.length
    ∧ x.declared.literalCount ≤ x.literals.length

/-- R15: the first `k` entries of a staged load, in the examination order, meet the conditions of R4 to R10: references
are judged against the whole template, and a condition on two entries is charged to the later one. -/
def SoundUpTo (x : Staging) (k : Nat) : Prop :=
  SoundEntries x.declared.group x.rowDefs (x.fixed.take k) (x.rowDefs.take (k - x.fixed.length))
    (x.literals.take (k - x.fixed.length - x.rowDefs.length))

/-- R14: the field definitions of one region, or the literal runs, that a part carries, in order. -/
def fieldsOf (row : Bool) (entries : List LoadEntry) : List FieldDef :=
  entries.filterMap (fun e => match e with
    | .field d => if d.rowRegion = row then some d else none
    | .literal _ => none)

def runsOf (entries : List LoadEntry) : List LiteralRun :=
  entries.filterMap (fun e => match e with
    | .field _ => none
    | .literal l => some l)

/-! ### Start-up -/

/-- R195: what power-on and the reset input leave of every block, but for the events: the Template Store empty, the
stations DETACHED, the row pool full, the loop STOPPED with its defaults, the slots free and the receiver hunting. -/
structure InStartUp (s : State) : Prop where
  receiver : s.rx = .hunting
  generalSlots : ∀ g : GenId, s.general[g] = .free
  attentionSlots : ∀ i : StationId, s.attention[i] = none
  staging : s.staging = none
  table : ∀ e : EntryId, s.table[e] = none
  numbers : ∀ id, s.nextVersionOf id = 0
  rowPool : s.freeRows = 512
  stations : ∀ i, s.station i = Station.detachedRecord
  loop : s.loop = { mode := .stopped, speed := 2, window := 4, missLimit := 3, pendingStop := none, visit := none
                    last := none }

/-- R195: no event is raised, {STARTED} is enabled and nothing waits. -/
def NothingRaised (s : State) : Prop :=
  s.raw = RawEvents.empty ∧ s.enable = 1#16 ∧ s.event = .empty ∧ s.waiting = []

/-- R195: STARTED is raised and enabled, and its EVENT NOTICE waits alone. -/
def StartedWaits (s : State) : Prop :=
  s.raw = { RawEvents.empty with flags := 1#16 } ∧ s.enable = 1#16 ∧ s.event = .waiting ∧ s.waiting = [.event]

/-! ### A station that takes a record at once -/

/-- R35: station `i` is attached, takes records, and none waits: the next record to arrive is taken at once. -/
def Ready (s : State) (i : StationId) : Prop :=
  (s.station i).state ≠ .detached ∧ (s.station i).state ≠ .releasing ∧ (s.station i).records = []
    ∧ s.frozen i = false

/-- What a record of station `i`, arriving in slot `g`, leaves alone whatever it is: the other stations, the loop, the
template versions' numbers and staging, the transmitter, the enable set and the other general slots. -/
def Confined (s t : State) (i : StationId) (g : GenId) : Prop :=
  t.pending = s.pending ∧ t.resetInput = s.resetInput ∧ t.holdInput = s.holdInput ∧ t.rx = .hunting ∧ t.tx = s.tx
    ∧ t.cuts = s.cuts ∧ t.enable = s.enable ∧ t.staging = s.staging ∧ t.nextVersion = s.nextVersion ∧ t.loop = s.loop
    ∧ (∀ j, j ≠ i → t.station j = s.station j) ∧ (∀ j, j ≠ i → t.attention[j] = s.attention[j])
    ∧ (∀ h, h ≠ g → some h ≠ (s.station i).reportSlot → t.general[h] = s.general[h])

/-- As `Confined`, and the part's events, templates and attention slots are left alone too. -/
def Quiet (s t : State) (i : StationId) (g : GenId) : Prop :=
  Confined s t i g ∧ t.raw = s.raw ∧ t.event = s.event ∧ t.table = s.table ∧ t.attention = s.attention
    ∧ t.waiting = s.waiting ++ [.general g]

/-- R119, R120: a row stays the row it is, but for its derived instances, which the Tally Unit writes. -/
def RowKept (v : TemplateVersion) (x y : RowRec) : Prop :=
  y.tag = x.tag ∧ y.operatorCreated = x.operatorCreated ∧ y.insts.length = x.insts.length
    ∧ ∀ (j : Nat) d, v.rowDefs[j]? = some d → isDerived d = false → y.insts[j]? = x.insts[j]?

/-- The fixed instances stay as they are, but for the derived ones. -/
def FixedKept (v : TemplateVersion) (x y : List FieldInst) : Prop :=
  y.length = x.length ∧ ∀ (j : Nat) d, v.fixed[j]? = some d → isDerived d = false → y[j]? = x[j]?

/-- R123: the form once the edit of an instance is abandoned: the editing flag is clear and a NUMERIC instance shows its
committed value again; a TEXT or ALPHA instance keeps its text, and every instance its modified flag. -/
def abandoned (v : TemplateVersion) (c : Context) (r : InstRef) : Context :=
  { c.modInst r (fun x => match v.defOf r with
      | some d => if isNumeric d then { x with text := displayForm (numForm d) x.value } else x
      | none => x) with
    editing := false }

/-- R123: `c'` is the form `c` after a row has joined or left it, with the derived instances computed: the instance `r`
was being edited; its edit goes on if the cursor is still in it, and is abandoned else. -/
def EditGoesOn (v : TemplateVersion) (c : Context) (r : InstRef) (c' : Context) : Prop :=
  let b := if instAt v c c.cursor = some r then c else abandoned v c r
  c'.editing = b.editing ∧ FixedKept v b.fixed c'.fixed ∧ List.Forall₂ (RowKept v) b.rows c'.rows

/-- R51, R147: the text of instance `r` of the form `c` is to be painted again: by its own entry, by BAND, or by a full
repaint. A row outside the window shows nothing. -/
def PaintedAgain (v : TemplateVersion) (c : Context) (p : Paint) (r : InstRef) : Prop :=
  p.resume ≠ none ∨ match r with
    | .fixed j => Dirty.field j ∈ p.dirty
    | .row q j => c.first ≤ q → q < c.first + v.group.visible →
        Dirty.band ∈ p.dirty ∨ Dirty.slot (q + 1 - c.first) j ∈ p.dirty

/-- R20, R21: station `i` has dropped its form, if it held one: its version has one use less, and a RETIRED version
without another is freed with TEMPLATE FREED raised. -/
def FormDropped (s t : State) (i : StationId) : Prop :=
  let same := t.raw = s.raw ∧ t.event = s.event
  ((s.station i).ctx = none → t.table = s.table ∧ same)
    ∧ ∀ c w, (s.station i).ctx = some c → s.table[c.entry] = some w → 1 ≤ w.useCount →
      (w.status = .retired → w.useCount = 1 →
        t.table = s.table.set c.entry none ∧ t.raw = s.raw.raise .templateFreed
          ∧ t.event = (s.raise .templateFreed).event)
        ∧ (w.status = .live ∨ w.useCount ≠ 1 →
          t.table = s.table.set c.entry (some { w with useCount := w.useCount - 1 }) ∧ same)

/-- R37 steps 2 and 3: the keystrokes of a queue delivered from its head to a station whose lock is NONE and whose
type-ahead queue is empty: an operator error discards the rest, and a latched attention leaves the rest queued. -/
def State.drained (i : StationId) : State → List Byte → State
  | s, [] => s
  | s, k :: rest =>
    let t := State.deliverKey i s k
    match (t.station i).lock with
    | .none => t.drained i rest
    | .operatorError _ => t
    | .system => { t with stations := t.stations.set i { t.station i with typeAhead := rest } }
    | .snapshot => { t with stations := t.stations.set i { t.station i with typeAhead := rest } }

/-- R37, R44, R127: `t` is `s` after a record of kind `kind` that opens station `i`, which has no form: the station
becomes BLANK under lock NONE and the record is answered DONE; an overrun queue is discarded; else the keystrokes before
the first attention key are discarded, and that key latches again, with those behind it queued. -/
def OpensBlank (s t : State) (i : StationId) (g : GenId) (kind : Nat) : Prop :=
  let st := s.station i
  let blank : Station := { st with
    state := .blank, lock := .none, typeAhead := [], overrun := false
    paint := if st.state = .attention then st.paint.add false .message else st.paint }
  (st.overrun = true ∨ st.typeAhead.find? isAttentionKey = none →
      t = { s.replied g (stationNumber i) (.done kind) with stations := s.stations.set i blank })
    ∧ ∀ skipped k rest, st.overrun = false → st.typeAhead = skipped ++ k :: rest →
      skipped.find? isAttentionKey = none → isAttentionKey k = true →
      t = { s.replied g (stationNumber i) (.done kind) with
        attention := s.attention.set i (some k), waiting := s.waiting ++ [.attention i, .general g]
        stations := s.stations.set i { blank with
          state := .attention, lock := .system, typeAhead := rest, paint := blank.paint.add false .message } }

/-- R40: a value entry that names a TEXT, ALPHA or NUMERIC definition of a list and carries a good text for it. -/
def GoodValue (defs : List FieldDef) (x : ValueEntry) : Prop :=
  ∃ d, defs.find? (fun d => d.id == x.id) = some d ∧ isDerived d = false ∧ (hostText d x.text).isSome = true

/-- R35, R110: the state of a station that takes a record in its form: the form is `c` on version `v`. -/
def FormTaken (s : State) (i : StationId) (g : GenId) (v : TemplateVersion) (c : Context) : Prop :=
  Receiving s g ∧ Ready s i ∧ (s.station i).ctx = some c ∧ s.versionAt c.entry = v

/-! ### Keys at a station that shows its form -/

/-- R25, R49: station `i` is in ENTRY with lock NONE, showing the form `c` on version `v`: it applies keystrokes. -/
def Keying (s : State) (i : StationId) (v : TemplateVersion) (c : Context) : Prop :=
  (s.station i).state = .entry ∧ (s.station i).lock = .none ∧ (s.station i).ctx = some c ∧ s.versionAt c.entry = v

/-- A keystroke at station `i` leaves the lock `lock` and the form `c`, and changes nothing else but what is to be
painted. -/
def Keyed (s t : State) (i : StationId) (lock : Lock) (c : Context) : Prop :=
  t = { s with stations := s.stations.set i (t.station i) }
    ∧ t.station i = { s.station i with lock := lock, ctx := some c, paint := (t.station i).paint }

/-- R70: a keystroke refused with a code leaves the form `c`, the operator error and its pending ALARM. -/
def KeyRefused (s t : State) (i : StationId) (code : ErrorCode) (c : Context) : Prop :=
  Keyed s t i (.operatorError code) c ∧ (t.station i).paint.alarm = true

/-- R63: `c'` is the form `c` after the exit of an instance that is left as `x`: the edit is over, and the Tally Unit has
seen to the derived instances. Its window and cursor are told apart. -/
def Exited (v : TemplateVersion) (c : Context) (r : InstRef) (x : FieldInst) (adjusted : Bool) (c' : Context) : Prop :=
  let b := c.modInst r (fun _ => x)
  c' = { b with
      fixed := c'.fixed, rows := c'.rows, first := c'.first, cursor := c'.cursor, editing := false
      adjusted := adjusted }
    ∧ c'.inst? r = some x ∧ FixedKept v b.fixed c'.fixed ∧ List.Forall₂ (RowKept v) b.rows c'.rows

/-- The instance an exit leaves (R63). -/
def Checked.leaves (y : Checked) (x : FieldInst) : FieldInst := { x with text := y.text, value := y.value }

/-- R59, R63, R77: a key that exits the field and then takes the window to `f` and the cursor to `q`. Without an edit
under way it only moves; a failed exit check leaves the window, puts the cursor at the field start and sets the operator
error; a passed one is carried out before the move. -/
def KeyMoves (s : State) (i : StationId) (v : TemplateVersion) (c : Context) (k : Byte) (f : Nat) (q : Pos) : Prop :=
  let t := State.deliverKey i s k
  let paint := (t.station i).paint
  (c.editing = false ∨ under v c = none →
      Keyed s t i .none { c with adjusted := false, first := f, cursor := q }
        ∧ (q ≠ c.cursor → paint.cursorPending = true)
        ∧ (f ≠ c.first → paint.resume ≠ none ∨ Dirty.band ∈ paint.dirty))
    ∧ ∀ u, under v c = some u → c.editing = true →
      (∀ code, exitCheck u.field u.inst false = .error code →
          KeyRefused s t i code { c with adjusted := false, cursor := fieldStart v c u.ref })
        ∧ ∀ y, exitCheck u.field u.inst false = .ok y →
          ∃ c', Keyed s t i .none c' ∧ Exited v c u.ref (y.leaves u.inst) y.adjusted c' ∧ c'.first = f ∧ c'.cursor = q

/-- R85: the window and the cursor of `c'` are where a TAB without an edit takes those of `c`. -/
def MovedAsTab (s : State) (i : StationId) (c c' : Context) : Prop :=
  let idle : State := { s with stations := s.stations.set i { s.station i with ctx := some { c with editing := false } } }
  ∃ d, ((State.deliverKey i idle 0x90).station i).ctx = some d ∧ d.first = c'.first ∧ d.cursor = c'.cursor

/-- R134: the first instance that is mandatory and unentered, fixed instances first, then those of the rows in list
order. -/
def firstUnentered (v : TemplateVersion) (c : Context) : Option InstRef :=
  (allRefs v c).find? (fun r => match v.defOf r, c.inst? r with
    | some d, some x => d.mandatoryEntry && !x.modified
    | _, _ => false)

/-! ### The tab set -/

/-- R76: a field start of the tab set. -/
def TabStart (v : TemplateVersion) (c : Context) (q : Pos) : Prop :=
  (∃ d ∈ v.fixed, d.prot = false ∧ q = ⟨d.row, d.col⟩)
    ∨ ∃ k, k < v.group.visible ∧ 1 ≤ c.first + k ∧ c.first + k ≤ c.rows.length
      ∧ ∃ d ∈ v.rowDefs, d.prot = false ∧ q = ⟨v.group.first + k, d.col⟩

/-- R78: the first field start of the tab set, in screen order, of those that `P` holds of. -/
def FirstTab (v : TemplateVersion) (c : Context) (P : Pos → Prop) (q : Pos) : Prop :=
  TabStart v c q ∧ P q ∧ ∀ s, TabStart v c s → P s → s = q ∨ q.before s = true

/-- R80: the last field start of the tab set, in screen order, of those that `P` holds of. -/
def LastTab (v : TemplateVersion) (c : Context) (P : Pos → Prop) (q : Pos) : Prop :=
  TabStart v c q ∧ P q ∧ ∀ s, TabStart v c s → P s → s = q ∨ s.before q = true

/-- R76, R82: the first start of the tab set, and (1, 1) when there is none. -/
def HomeTarget (v : TemplateVersion) (c : Context) (q : Pos) : Prop :=
  FirstTab v c (fun _ => True) q ∨ (∀ s, ¬TabStart v c s) ∧ q = ⟨1, 1⟩

/-- R78, R83: the first start that `P` holds of, and the first of the whole tab set when there is none. -/
def ForwardTarget (v : TemplateVersion) (c : Context) (P : Pos → Prop) (q : Pos) : Prop :=
  FirstTab v c P q ∨ (∀ s, TabStart v c s → ¬P s) ∧ HomeTarget v c q

/-- R80: the last start before the cursor; when there is none the last of the whole tab set, or (1, 1). -/
def BackwardTarget (v : TemplateVersion) (c : Context) (q : Pos) : Prop :=
  LastTab v c (fun s => s.before c.cursor = true) q
    ∨ (∀ s, TabStart v c s → s.before c.cursor = false)
      ∧ (LastTab v c (fun _ => True) q ∨ (∀ s, ¬TabStart v c s) ∧ q = ⟨1, 1⟩)

/-! ### Paint units -/

/-- R152 part 4: the units of a band: a unit for each row field of an occupied slot, one for an empty slot. -/
def bandUnits (v : TemplateVersion) (c : Context) : List PaintUnit :=
  (List.range v.group.visible).flatMap (fun k =>
    if (c.slotRow (k + 1)).isSome then (List.range v.rowDefs.length).map (fun j => .band (k + 1) j) else [.band (k + 1) 0])

/-- R152: the units of a full repaint of a station, in their order; a station without a form has a clearing repaint. -/
def repaintUnits (st : Station) (v : TemplateVersion) : List PaintUnit :=
  match st.ctx with
  | none => [.clear, .message]
  | some c => [.clear] ++ (List.range v.literals.length).map .literal ++ (List.range v.fixed.length).map .field
      ++ bandUnits v c ++ [.message]

/-- R153, R155: the units a dirty-list entry is still to be written as; a BAND entry goes on from its resume point. -/
def entryUnits (st : Station) (v : TemplateVersion) (band : Option BandPoint) (d : Dirty) : List PaintUnit :=
  match d with
  | .field i => [.field i]
  | .slot k j => [.band k j]
  | .message => [.message]
  | .band => match st.ctx with
    | some c => match band with
      | some b => (bandUnits v c).dropWhile (fun u => u != .band b.k b.j)
      | none => bandUnits v c
    | none => []

/-- R154: the units that are due at a station, in the order in which they are written. -/
def dueUnits (st : Station) (v : TemplateVersion) (p : Paint) : List PaintUnit :=
  (match p.resume with
    | some r => (repaintUnits st v).dropWhile (fun u => u != r)
    | none => [])
    ++ p.dirty.flatMap (entryUnits st v p.band)

/-! ### The laws of the part -/

/-- The states in which a station holds a context (R28). -/
def holdsForm (x : StationState) : Bool :=
  match x with
  | .composing => true
  | .entry => true
  | .held => true
  | .attention => true
  | .detached => false
  | .blank => false
  | .releasing => false

/-- Only a COMPOSING, ENTRY, HELD or ATTENTION station holds a context. -/
def FormsHeld (s : State) : Prop := ∀ i, (s.station i).ctx.isSome → holdsForm (s.station i).state

/-- The rows a station holds. -/
def rowsHeld (st : Station) : Nat :=
  match st.ctx with
  | some c => c.rows.length
  | none => 0

/-- R31: the free row records and the rows of the contexts make up the pool. -/
def RowPoolLaw (s : State) : Prop :=
  FormsHeld s ∧ s.freeRows + (stationIds.map (fun i => rowsHeld (s.station i))).sum = Config.rowPool

/-- The number of station contexts built on the version of a table entry. -/
def usesOf (s : State) (e : EntryId) : Nat :=
  (stationIds.filter (fun i => match (s.station i).ctx with
    | some c => c.entry == e
    | none => false)).length

/-- R19: no two LIVE versions of one template id. -/
def OneLive (s : State) : Prop :=
  ∀ (e f : EntryId) (v w : TemplateVersion), s.table[e] = some v → s.table[f] = some w → v.status = .live → w.status = .live → v.id = w.id → e = f

/-- R20, R21: every use count is the number of contexts built on the version, and no RETIRED version is unused. -/
def UseCounts (s : State) : Prop :=
  ∀ (e : EntryId) (v : TemplateVersion), s.table[e] = some v → v.useCount = usesOf s e ∧ (v.status = .retired → v.useCount ≠ 0)

/-- Every context is built on a version in the table, and a staged load's entry is free. -/
def EntriesHeld (s : State) : Prop :=
  (∀ i c, (s.station i).ctx = some c → s.table[c.entry].isSome) ∧ (∀ x, s.staging = some x → s.table[x.entry] = none)

/-- The laws of the Template Store (R19 to R21). -/
def StoreLaw (s : State) : Prop := FormsHeld s ∧ OneLive s ∧ UseCounts s ∧ EntriesHeld s

/-- Whether the visit under way is to station `i` with a paint frame not yet transmitted whole. -/
def paintUnsent (s : State) (i : StationId) : Prop :=
  ∃ number mark orders, s.loop.visit = some { station := i, frame := .paint number mark orders, sent := false }

/-- R167: no station has more blocks in flight than its paint window, and room is left for a block being sent. -/
def PaintWindowLaw (s : State) : Prop :=
  ∀ i l, (s.station i).link = some l →
    1 ≤ l.window ∧ l.window ≤ 7 ∧ l.inFlight ≤ l.window ∧ (paintUnsent s i → l.inFlight < l.window)

/-- R147: a dirty list holds at most 64 entries, none twice, and no SLOT entry together with BAND. -/
def dirtyLaw (l : List Dirty) : Bool :=
  l.length ≤ Config.dirtyList && decide l.Nodup && !(l.contains .band && l.any isSlot)

/-- R147: the law of the dirty lists. -/
def DirtyListLaw (s : State) : Prop := ∀ i, dirtyLaw (s.station i).paint.dirty = true

/-- R34, R36: a record queue holds at most 4 records, a type-ahead queue at most 32 keystrokes. -/
def QueueLaw (s : State) : Prop :=
  ∀ i, (s.station i).records.length ≤ Config.recordQueue ∧ (s.station i).typeAhead.length ≤ Config.typeAhead

/-- R24: the locks a state admits. -/
def lockAdmitted (x : StationState) (l : Lock) : Prop :=
  match x with
  | .detached => l = .system
  | .blank => l = .none
  | .composing => l = .system
  | .entry => l ≠ .system
  | .held => l = .system
  | .attention => l = .system
  | .releasing => l = .system

/-- R24, R28, R163: a station's state decides whether it holds a loop record and a context, and which locks it may have;
with lock NONE, and RELEASING, its type-ahead queue is empty. No record waits at a DETACHED station. The compose options
stand in COMPOSING alone, and the slot of a RELEASE in RELEASING alone. -/
def StationLaw (s : State) : Prop :=
  ∀ i, ((s.station i).state = .detached ↔ (s.station i).link = none)
    ∧ ((s.station i).state = .detached → (s.station i).records = [])
    ∧ ((s.station i).state = .composing ∨ (s.station i).state = .entry ∨ (s.station i).state = .held →
        (s.station i).ctx.isSome = true)
    ∧ ((s.station i).ctx.isSome = true → holdsForm (s.station i).state = true)
    ∧ lockAdmitted (s.station i).state (s.station i).lock
    ∧ ((s.station i).lock = .none ∨ (s.station i).state = .releasing → (s.station i).typeAhead = [])
    ∧ ((s.station i).reportSlot ≠ none → (s.station i).state = .composing)
    ∧ ((s.station i).releaseSlot ≠ none ↔ (s.station i).state = .releasing)

/-- R107: a committed value a field of this form may hold. -/
def valueFits (f : NumForm) (value : Option Int) : Bool :=
  match value with
  | none => true
  | some m => m.natAbs ≤ 10 ^ f.digits - 1 && (f.signed || 0 ≤ m)

/-- R33, R74, R75, R91, R107, R121: the shape of a context on a version: an instance for each definition, no more rows than M,
the window in its range, the cursor in rows 1 to 23, at most 99 deleted tags, no tag twice, every text as wide as its
field, and every committed value one its field may hold. -/
def contextLaw (v : TemplateVersion) (c : Context) : Bool :=
  c.fixed.length == v.fixed.length && c.rows.all (fun r => r.insts.length == v.rowDefs.length)
    && c.rows.length ≤ v.group.maxRows && v.group.maxRows ≤ 99
    && 1 ≤ c.first && c.first ≤ max 1 (c.rows.length + 1 - v.group.visible)
    && 1 ≤ c.cursor.row && c.cursor.row ≤ 23 && 1 ≤ c.cursor.col && c.cursor.col ≤ 80
    && c.deletedTags.length ≤ 99 && decide c.deletedTags.Nodup && decide (c.rows.filterMap RowRec.tag).Nodup
    && (allRefs v c).all (fun r => match v.defOf r, c.inst? r with
      | some d, some x =>
        x.text.length == d.width && ((numericPart d.kind).isNone || valueFits (numForm d) x.value)
      | _, _ => false)

/-- The row position a reference names, 0 for a fixed instance. -/
def InstRef.position (r : InstRef) : Nat :=
  match r with
  | .fixed _ => 0
  | .row p _ => p

/-- R95, R107, R123: a NUMERIC instance shows the display form of its value, but
for the unprotected one being edited under the cursor; and every derived instance is as a computation now would leave it. -/
def numbersLaw (v : TemplateVersion) (c : Context) : Bool :=
  (allRefs v c).all (fun r => match v.defOf r, c.inst? r with
    | some d, some x =>
      (!isNumeric d || (c.editing && !d.prot && instAt v c c.cursor == some r)
          || x.text == displayForm (numForm d) x.value)
        && (!isDerived d || computed v c r.position d x == x)
    | _, _ => false)

/-- R3, R13, R14: what a staged load keeps of its LOAD BEGIN: values in their ranges, no more entries than declared, and
each definition in the list of its region. -/
def stagingLaw (x : Staging) : Bool :=
  loadBeginOk x.declared && heldGroup x.declared.group == x.declared.group
    && x.fixed.length ≤ x.declared.fixedCount && x.rowDefs.length ≤ x.declared.rowCount
    && x.literals.length ≤ x.declared.literalCount && x.fixed.all (fun d => !d.rowRegion) && x.rowDefs.all (fun d => d.rowRegion)

/-- R3, R4 to R10: every version in the table is a sound template on a group in its ranges. -/
def TemplatesSound (s : State) : Prop :=
  (∀ x, s.staging = some x → stagingLaw x = true)
    ∧ ∀ (e : EntryId) (v : TemplateVersion), s.table[e] = some v →
      (v.group.visible ≠ 0 → 1 ≤ v.group.first ∧ v.group.first + v.group.visible ≤ 24)
        ∧ (v.group.visible = 0 → v.rowDefs = [] ∧ v.group.maxRows = 0) ∧ v.group.maxRows ≤ 99
        ∧ (∀ d ∈ v.fixed, d.rowRegion = false) ∧ (∀ d ∈ v.rowDefs, d.rowRegion = true)
        ∧ SoundTemplate v.group v.fixed v.rowDefs v.literals

/-- The law of the forms: sound templates, and on each of them every context in its shape. -/
def FormLaw (s : State) : Prop :=
  TemplatesSound s ∧ StoreLaw s
    ∧ ∀ i c, (s.station i).ctx = some c → contextLaw (s.versionAt c.entry) c = true

/-- The law of the numbers, on forms in their shape. -/
def NumbersLaw (s : State) : Prop :=
  FormLaw s ∧ ∀ i c, (s.station i).ctx = some c → numbersLaw (s.versionAt c.entry) c = true

end Sys2Proof.Machine
end

