-- ==== Sys2Proof/Certificates/Slice0/Obligations.lean ====
section
/-! DEFINITION. The statements for the provers, by chapter of the spec from the trunk inwards. A slot `g` in a statement
about a frame is the general slot that the frame's first octet reserved (R180). -/

open Sys2Proof Sys2Proof.Machine

/-! ### The queue of commands, start-up and the resets -/

/-- A step takes the command at the front of the queue and runs it with the queue's rest; an empty queue leaves the part
idle; and no command ever stops the part. The queue is the model's own, and the idle step its choice (assumption 5).
That a command whose event cannot occur in a state keeps the state is the model's choice too (assumption 4), and that
every other command has an effect in every state is its reading of the whole spec, no sentence of it. The last clause
says that there is a next state, and nothing of what that state is. -/
def Obligations.StepRunsFrontCommand : Prop :=
  (∀ (c : Instr) (rest : List Instr) (s : State),
      step { s with pending := c :: rest } = exec c { s with pending := rest }
        ∧ step { s with pending := [] } = .next { s with pending := [] })
    ∧ ∀ (c : Instr) (s : State), ∃ t, exec c s = .next t

/-- R195: `State.reset` is the part after power-on: each block in its start-up condition, STARTED waiting to be reported,
and the laws of the part holding. The levels of the two inputs are the model's choice (assumption 1). -/
def Obligations.ResetStateMeetsLaws : Prop :=
  (InStartUp State.reset ∧ StartedWaits State.reset ∧ State.reset.tx = .idle ∧ State.reset.pending = []
      ∧ State.reset.resetInput = false ∧ State.reset.holdInput = false ∧ State.reset.trunkReady = true
      ∧ State.reset.freeEntries = 48 ∧ State.reset.freeDefinitions = 2048 ∧ State.reset.freeLiterals = 16384)
    ∧ (RowPoolLaw State.reset ∧ NumbersLaw State.reset ∧ PaintWindowLaw State.reset ∧ DirtyListLaw State.reset
      ∧ QueueLaw State.reset ∧ EventLaw State.reset ∧ StationLaw State.reset)

/-- R195, sentence by sentence: power-on and the reset input put every block into its start-up condition; trunk-ready is
deasserted and no frame is received while the reset input is asserted; power-on and the release raise STARTED and place
its notice; the notice is transmitted once a frame cut by the reset input has been completed. -/
def Obligations.StartUpOfEveryBlock : Prop :=
  (∀ s, ∃ t, exec .powerOn s = .next t ∧ InStartUp t ∧ StartedWaits t ∧ t.trunkReady = true)
    ∧ (∀ s, ∃ t, exec .resetInputAsserted s = .next t ∧ InStartUp t ∧ NothingRaised t ∧ t.resetInput = true)
    ∧ (∀ s, s.resetInput = true →
        s.trunkReady = false ∧ exec .firstOctet s = .next s ∧ ∀ c, isFrame c = true → exec c s = .next s)
    ∧ (∀ s, s.resetInput = true → InStartUp s → NothingRaised s →
        ∃ t, exec .resetInputReleased s = .next t ∧ InStartUp t ∧ StartedWaits t ∧ t.trunkReady = true
          ∧ t.tx = s.tx)
    ∧ (∀ s octets, StartedWaits s → s.tx = .completing octets → exec .transmissionStart s = .next s)
    ∧ (∀ s, StartedWaits s → s.tx = .idle →
        ∃ t, exec .transmissionStart s = .next t
          ∧ t.tx = .sending .event
              (frameOctets 0 0x46 (eventOctets { RawEvents.empty with flags := 1#16 })))

/-- The same three commands with everything they keep, by the model's choices of assumptions 1, 4 and 7: the queue of
commands and the level of the LOOP HOLD input outlast a reset (1), the reset input cuts the record in transmission before
its last octet (7), and the release of a reset input that is not asserted, an event that cannot occur, keeps the state
(4). -/
def Obligations.ResetsExactly : Prop :=
  (∀ s, exec .powerOn s =
      .next { State.reset with pending := s.pending, holdInput := s.holdInput, cuts := s.cuts })
    ∧ (∀ s slot octets, s.tx = .sending slot octets →
        ∃ n, (octets ≠ [] → n < octets.length) ∧ exec .resetInputAsserted s =
          .next { State.reset with
            pending := s.pending, holdInput := s.holdInput, resetInput := true, raw := RawEvents.empty
            event := .empty, waiting := [], tx := .completing (cutFrame octets n), cuts := s.cuts + 1 })
    ∧ (∀ s, (∀ slot octets, s.tx ≠ .sending slot octets) →
        exec .resetInputAsserted s =
          .next { State.reset with
            pending := s.pending, holdInput := s.holdInput, resetInput := true, raw := RawEvents.empty
            event := .empty, waiting := [], tx := s.tx, cuts := s.cuts })
    ∧ (∀ s, s.resetInput = true → NothingRaised s →
        exec .resetInputReleased s =
          .next { s with
            resetInput := false, raw := { RawEvents.empty with flags := 1#16 }, event := .waiting
            waiting := [.event] })
    ∧ (∀ s, s.resetInput = false → exec .resetInputReleased s = .next s)

/-- R194: what RESET COMPOSER keeps, frees and empties, and the notice of STARTED that follows when it is enabled. That
the level of the LOOP HOLD input is kept is the model's choice (assumption 1), and the queue of commands is the model's
own (assumption 29). The last clause is the frame that follows the reset record. -/
def Obligations.ResetComposerKeepsLiveVersions : Prop :=
  ∀ (s : State) (g : GenId), Receiving s g →
    ∃ t, exec .resetComposer s = .next t
      ∧ (∀ e : EntryId, t.table[e] = match s.table[e] with
          | some v => if v.status = .live then some { v with useCount := 0 } else none
          | none => none)
      ∧ t.nextVersion = s.nextVersion ∧ t.staging = none
      ∧ (∀ i, t.station i = Station.detachedRecord) ∧ t.freeRows = 512
      ∧ t.loop = { mode := .stopped, speed := 2, window := 4, missLimit := 3, pendingStop := none, visit := none
                   last := none }
      ∧ (∀ h : GenId, t.general[h] = .free) ∧ (∀ i : StationId, t.attention[i] = none)
      ∧ (∀ slot octets, s.tx = .sending slot octets →
        ∃ n, (octets ≠ [] → n < octets.length) ∧ t.tx = .completing (cutFrame octets n))
      ∧ ((∀ slot octets, s.tx ≠ .sending slot octets) → t.tx = s.tx)
      ∧ t.raw = { RawEvents.empty with flags := 1#16 } ∧ t.enable = s.enable
      ∧ (if s.enable.getLsbD 0 then t.event = .waiting ∧ t.waiting = [.event]
         else t.event = .empty ∧ t.waiting = [])
      ∧ t.rx = .hunting ∧ t.trunkReady = true
      ∧ t.pending = s.pending ∧ t.resetInput = s.resetInput ∧ t.holdInput = s.holdInput
      ∧ ∃ u h, exec .firstOctet t = .next u ∧ Receiving u h

/-! ### The receiver and the routing of frames -/

/-- R180: trunk-ready stands for a free general slot; the first octet of a frame reserves one, or begins a frame that is
discarded; a second octet that is not 3Ch gives the reservation back; a discarded frame, whatever it carries, leaves no
trace. -/
def Obligations.ReservationAtFirstOctet : Prop :=
  (∀ s : State, s.trunkReady = true ↔ s.resetInput = false ∧ ∃ g : GenId, s.general[g] = .free)
    ∧ (∀ s : State, s.rx = .hunting → s.trunkReady = true →
        ∃ g : GenId, s.general[g] = .free
          ∧ exec .firstOctet s = .next { s with general := s.general.set g .reserved, rx := .frame (some g) })
    ∧ (∀ s : State, s.rx = .hunting → s.resetInput = false → s.trunkReady = false →
        exec .firstOctet s = .next { s with rx := .frame none })
    ∧ (∀ s g, Receiving s g →
        ∃ t, exec .secondOctetNotStartPattern s = .next t
          ∧ t = { s with general := s.general.set g .free, rx := .hunting } ∧ t.trunkReady = true)
    ∧ (∀ s, Discarding s → exec .secondOctetNotStartPattern s = .next { s with rx := .hunting })
    ∧ (∀ s c, Discarding s → isFrame c = true → exec c s = .next { s with rx := .hunting })

/-- R181: the checks of an arriving frame in their order, each with the exception it refuses the frame with, and nothing
changed beyond that exception in the frame's slot; a frame that passes them is the record it carries. That these
exceptions carry no step and no entry index, to a COMPOSE or a FILL either, is the model's reading of R182 (assumption
14); that the command FRAME_REFUSED on a passing frame is that frame's record is the model's choice (assumption 3). -/
def Obligations.FrameChecksInOrder : Prop :=
  ∀ (s : State) (g : GenId) (f : TrunkFrame), Receiving s g →
    let sound := f.length.toNat ≤ 4096 ∧ f.payload.length = f.length.toNat
      ∧ f.check = crc16 (checkedOctets f.address f.kind f.payload)
    (¬sound → exec (.frameRefused f) s =
        .next (s.replied g 0 (.exception { reason := .frame, target := none, step := none, index := none })))
      ∧ (sound → 16 < f.address.toNat → exec (.frameRefused f) s =
        .next (s.replied g 0 (.exception { reason := .address, target := some (f.address.toNat, f.kind.toNat)
                                           step := none, index := none })))
      ∧ (sound → f.address.toNat = 0 → decodeControl f.kind.toNat f.payload = none →
        exec (.frameRefused f) s = .next (s.replied g 0 (controlException .format f.kind.toNat)))
      ∧ (sound → f.address.toNat = 0 → ∀ r, decodeControl f.kind.toNat f.payload = some r →
        exec (.frameRefused f) s = exec (controlCommand r) s)
      ∧ ∀ i : StationId, sound → f.address.toNat = i.val + 1 →
        (decodeStation f.kind.toNat f.payload = none → exec (.frameRefused f) s =
            .next (s.replied g (i.val + 1) (stationException i f.kind.toNat .format none none)))
          ∧ ∀ r, decodeStation f.kind.toNat f.payload = some r →
            exec (.frameRefused f) s = exec (.recordJoinsQueue i r) s
              ∧ ((s.station i).state = .detached → exec (.frameRefused f) s =
                  .next (s.replied g (i.val + 1) (stationException i (stationKind r) .detached none none)))
              ∧ ((s.station i).state ≠ .detached → 4 ≤ (s.station i).records.length →
                exec (.frameRefused f) s =
                  .next (s.replied g (i.val + 1) (stationException i (stationKind r) .queue none none)))

/-- R34, R35: a record for a station that is RELEASING or frozen joins the tail of its queue with its slot, and nothing
else changes; a record for a station that takes records at once is the record's own command. Which record a command
stands for is the model's choice (assumption 3): SET, APPEND ROW, INSERT ROW, DELETE ROW, TAG ROW and CURSOR are FILLs of
that one entry without options, CLEAR MODIFIED a FILL with that option. -/
def Obligations.RecordJoinsOrIsTaken : Prop :=
  ∀ (s : State) (g : GenId) (i : StationId), Receiving s g → (s.station i).state ≠ .detached →
    (∀ r, (s.station i).records.length < 4 → (s.station i).state = .releasing ∨ s.frozen i = true →
        exec (.recordJoinsQueue i r) s =
          .next { s with
            rx := .hunting
            stations := s.stations.set i
              { s.station i with records := (s.station i).records ++ [{ slot := g, record := r }] } })
      ∧ (s.frozen i = true ↔
          s.attention[i].isSome = true ∨ ∃ h : GenId, s.general[h] = .occupied (i.val + 1) .snapshot)
      ∧ (∀ c, exec (.recordJoinsQueue i (.compose c)) s = exec (.compose i c) s)
      ∧ (∀ ref text, exec (.recordJoinsQueue i (.fill [.set ref text] false false)) s = exec (.set i ref text) s)
      ∧ (∀ row, exec (.recordJoinsQueue i (.fill [.appendRow row] false false)) s = exec (.appendRow i row) s)
      ∧ (∀ p row, exec (.recordJoinsQueue i (.fill [.insertRow p row] false false)) s = exec (.insertRow i p row) s)
      ∧ (∀ p, exec (.recordJoinsQueue i (.fill [.deleteRow p] false false)) s = exec (.deleteRow i p) s)
      ∧ (∀ p tag, exec (.recordJoinsQueue i (.fill [.tagRow p tag] false false)) s = exec (.tagRow i p tag) s)
      ∧ (∀ ref, exec (.recordJoinsQueue i (.fill [.cursor ref] false false)) s = exec (.cursor i ref) s)
      ∧ (∀ l u, exec (.recordJoinsQueue i (.fill l u true)) s = exec (.clearModified i l u) s)
      ∧ (∀ b x, exec (.recordJoinsQueue i (.note b x)) s = exec (.note i b x) s)
      ∧ exec (.recordJoinsQueue i .lock) s = exec (.lock i) s
      ∧ exec (.recordJoinsQueue i .unlock) s = exec (.unlock i) s
      ∧ exec (.recordJoinsQueue i .resetModified) s = exec (.resetModified i) s
      ∧ exec (.recordJoinsQueue i .read) s = exec (.read i) s
      ∧ exec (.recordJoinsQueue i .release) s = exec (.release i) s

/-- R110, R179, R181, R196: every well-formed station record and control record is decoded from the octets of its layout
as it was; and the whole frame of such a record, layout and check, arrives as that record's command. That the command
FRAME_REFUSED on a frame that passes every check is that frame's record is the model's choice (assumption 3). -/
def Obligations.RecordsAndFramesRoundTrip : Prop :=
  ((∀ r : StationRecord, r.wf = true → decodeStation (stationKind r) (encodeStation r) = some r)
      ∧ (∀ r : ControlRecord, r.wf = true → decodeControl (controlKind r) (encodeControl r) = some r))
    ∧ (∀ (s : State) (i : StationId) (r : StationRecord), r.wf = true →
      exec (.frameRefused (frameOf (octet (i.val + 1)) (octet (stationKind r)) (encodeStation r))) s
        = exec (.recordJoinsQueue i r) s)
    ∧ (∀ (s : State) (r : ControlRecord), r.wf = true →
      exec (.frameRefused (frameOf 0 (octet (controlKind r)) (encodeControl r))) s = exec (controlCommand r) s)

/-! ### The transmitter -/

/-- R183 to R185: with no record in transmission, the record that has waited longest starts; its frame is built then, and
a WAITING notice becomes SENDING. The last octet of a record frees its slot; a notice owed is placed; the last completion
octet of a cut frame ends the frame alone. A record that carries no SNAPSHOT, and an ATTENTION of a station with no
record waiting, change nothing more. -/
def Obligations.TransmitterSendsRecords : Prop :=
  (∀ (s : State) (n : SlotName) (rest : List SlotName), s.tx = .idle → s.waiting = n :: rest →
      (n ≠ .event → exec .transmissionStart s = .next { s with tx := .sending n (s.slotOctets n), waiting := rest })
        ∧ (n = .event → s.event = .waiting →
          exec .transmissionStart s =
            .next { s with
              tx := .sending .event (frameOctets 0 0x46 (eventOctets (reported s.raw s.enable))), waiting := rest
              event := .sending })
        ∧ (∀ g address kind, n = .general g → s.general[g] = .occupied address (.done kind) →
          s.slotOctets n = frameOctets address 0x40 [octet kind])
        ∧ (∀ i key, n = .attention i → s.attention[i] = some key → (s.station i).ctx = none →
          s.slotOctets n
            = frameOctets (i.val + 1) 0x50 (key :: ([0, 0, 0, 0, 0] ++ [0, 0, 0, 0] ++ [0, 0, 0, 0, 0, 0] ++ [0, 0])))
        ∧ (∀ address kind payload,
          let body := [octet address, octet kind, octet (payload.length / 256), octet payload.length] ++ payload
          frameOctets address kind payload
            = [0xA5, 0x3C] ++ body ++ [(crc16 body).extractLsb' 8 8, (crc16 body).extractLsb' 0 8]))
    ∧ ((∀ s octets, s.tx = .completing octets → exec .lastOctetTransmitted s = .next { s with tx := .idle })
      ∧ (∀ (s : State) (g : GenId) octets, s.tx = .sending (.general g) octets →
          (∀ address, s.general[g] ≠ .occupied address .snapshot) →
          exec .lastOctetTransmitted s = .next { s with tx := .idle, general := s.general.set g .free })
      ∧ (∀ (s : State) (i : StationId) octets, s.tx = .sending (.attention i) octets →
          (s.station i).records = [] →
          exec .lastOctetTransmitted s = .next { s with tx := .idle, attention := s.attention.set i none })
      ∧ (∀ s octets, s.tx = .sending .event octets → s.event = .sending →
          exec .lastOctetTransmitted s = .next { s with tx := .idle, event := .empty })
      ∧ (∀ s octets, s.tx = .sending .event octets → s.event = .sendingOwed →
          exec .lastOctetTransmitted s =
            .next { s with tx := .idle, event := .waiting, waiting := s.waiting ++ [.event] }))

/-- 11.2, 11.3, 11.5, R138 to R142, R190: the octets of the inbound records as they are built: LOADED, STATUS, STATION
STATUS, COMPOSED and EXCEPTION, each absent part sent as 0, and ATTENTION and SNAPSHOT of a station with a form: key,
cursor part, the modified fixed instances, the reported SUM instances, the rows with a change or without a tag, and the
deleted tags; an ATTENTION of CLEAR carries the key and the cursor part alone. That STATUS codes the speed and the window
as LOOP START does is the model's reading (assumption 24). -/
def Obligations.InboundPayloadsAreLaidOut : Prop :=
  let flag (b : Bool) : Nat := if b then 1 else 0
  (∀ (s : State) (g : GenId) (a : Nat) (x : Inbound), s.general[g] = .occupied a x →
      let sends (kind : Nat) (payload : List Byte) := s.slotOctets (.general g) = frameOctets a kind payload
      (∀ id version, x = .loaded id version none → sends 0x41 [octet id, octet version, 0, 0])
        ∧ (∀ id version old, x = .loaded id version (some old) → sends 0x41 [octet id, octet version, 1, octet old])
        ∧ (x = .composed → sends 0x44 [])
        ∧ (∀ e, x = .exception e → sends 0x45
            ([codeIn [.frame, .address, .format, .detached, .queue, .state, .template, .field, .row, .pool, .store,
                .load, .limit] e.reason,
              octet (flag e.target.isSome + 2 * flag e.step.isSome + 4 * flag e.index.isSome),
              octet ((e.target.map Prod.fst).getD 0), octet ((e.target.map Prod.snd).getD 0), octet (e.step.getD 0)]
              ++ octets2 (e.index.getD 0)))
        ∧ (∀ r, x = .status r →
          let load : List Byte := match r.load with
            | none => List.replicate 12 0
            | some l => [1, octet l.id, octet l.fixedCount, octet l.rowCount, octet l.literalCount]
                ++ octets2 l.literalTotal ++ [octet l.fixedReceived, octet l.rowReceived, octet l.literalReceived]
                ++ octets2 l.charsReceived
          sends 0x42 ([codeIn [.stopped, .running, .held] r.mode, octet r.speed, octet r.window, octet r.missLimit,
              octet r.freeEntries] ++ octets2 r.freeDefinitions ++ octets2 r.freeLiterals ++ octets2 r.freeRows ++ load
            ++ r.stations.map (codeIn [.detached, .blank, .composing, .entry, .held, .attention, .releasing])
            ++ [r.raw.flags, r.raw.offline, r.raw.online, r.raw.lineCheck, r.raw.overrun, r.enable].flatMap
              (fun m => [m.extractLsb' 8 8, m.extractLsb' 0 8])))
        ∧ (∀ state, x = .stationStatus state none → sends 0x43
            (codeIn [.detached, .blank, .composing, .entry, .held, .attention, .releasing] state
              :: List.replicate 14 0))
        ∧ ∀ state r, x = .stationStatus state (some r) →
          let lock : List Byte := match r.lock with
            | .none => [0, 0]
            | .system => [1, 0]
            | .snapshot => [2, 0]
            | .operatorError code => [3, codeIn [.isProtected, .numeric, .letters, .range, .full, .mandatory, .noRoom,
                .overrun, .lineCheck] code]
          let form : List Byte := match r.ctx with
            | none => List.replicate 7 0
            | some c => [1, octet c.id, octet c.version, octet c.n, octet c.first, octet c.cursor.row,
                octet c.cursor.col]
          sends 0x43 (codeIn [.detached, .blank, .composing, .entry, .held, .attention, .releasing] state
            :: (lock ++ form ++ [octet r.inFlight, octet (flag r.online), octet r.missCount, octet r.dirty,
              octet r.typeAhead])))
    ∧ ∀ (s : State) (i : StationId) (v : TemplateVersion) (c : Context), (s.station i).ctx = some c →
      s.versionAt c.entry = v →
      let text (x : FieldInst) := octet x.text.length :: x.text
      let status (x : FieldInst) : Nat := match x.status with
        | .valid => 0
        | .saturated => 1
        | .held => 2
      let reports (d : FieldDef) : Bool := match d.kind with
        | .product _ _ _ part => part.report == 1
        | .sum _ _ part => part.report == 1
        | _ => false
      let cursor : List Byte := match instAt v c c.cursor with
        | none => [1, octet c.cursor.row, octet c.cursor.col, 0, 0]
        | some (.fixed j) => [2, octet c.cursor.row, octet c.cursor.col,
            octet ((v.fixed[j]?.map FieldDef.id).getD 0), 0]
        | some (.row p j) => [3, octet c.cursor.row, octet c.cursor.col,
            octet ((v.rowDefs[j]?.map FieldDef.id).getD 0), octet p]
      let fixed := ((v.fixed.zip c.fixed).filter (fun e => e.2.modified)).map (fun e => octet e.1.id :: text e.2)
      let derived := ((v.fixed.zip c.fixed).filter (fun e => isSum e.1 && reports e.1)).map (fun e =>
        [octet e.1.id, octet (16 * status e.2 + e.2.text.length), BitVec.ofInt 8 e.2.excursion] ++ e.2.text)
      let row (p : Nat) (r : RowRec) :=
        let all := v.rowDefs.zip r.insts
        let insts := all.filter (fun e => match r.tag with
          | some _ => e.2.modified
          | none => !e.1.prot)
        let products := all.filter (fun e => isProduct e.1 && reports e.1)
        octets2 (r.tag.getD 0) ++ [octet p, octet (128 * flag r.operatorCreated + products.length), octet insts.length]
          ++ insts.flatMap (fun e => octet e.1.id :: text e.2)
          ++ products.flatMap (fun e =>
            let excursion : Nat := if 0 < e.2.excursion then 1 else if e.2.excursion < 0 then 3 else 0
            [octet e.1.id, octet (64 * excursion + 16 * status e.2 + e.2.text.length)] ++ e.2.text)
      let rows := (c.rows.zipIdx 1).filterMap (fun e =>
        if e.1.tag = none ∨ ∃ x ∈ e.1.insts, x.modified = true then some (row e.2 e.1) else none)
      let whole (key : Byte) := key :: cursor
        ++ [octet c.rows.length, octet fixed.length, octet derived.length, octet rows.length]
        ++ octets2 fixed.flatten.length ++ octets2 derived.flatten.length ++ octets2 rows.flatten.length
        ++ fixed.flatten ++ derived.flatten ++ rows.flatten ++ c.deletedTags.flatMap octets2 ++ [0, 0]
      (∀ key, s.attention[i] = some key → key ≠ 0x81 →
          s.slotOctets (.attention i) = frameOctets (i.val + 1) 0x50 (whole key))
        ∧ (s.attention[i] = some 0x81 →
          s.slotOctets (.attention i) = frameOctets (i.val + 1) 0x50 (0x81 :: cursor ++ List.replicate 12 0))
        ∧ ∀ g : GenId, s.general[g] = .occupied (i.val + 1) .snapshot →
          s.slotOctets (.general g) = frameOctets (i.val + 1) 0x51 (whole 0)

/-- R129: a READ places a SNAPSHOT record in its slot, which freezes the station, and sets the lock SNAPSHOT in ENTRY
under lock NONE; it changes no instance. Without a form it is refused (R111). R27, R143, R35: the last octet of a SNAPSHOT
frees its slot and lifts the SNAPSHOT lock of its station, whose type-ahead queue is then delivered from its head, or
discarded under the operator error OVERRUN (R37); the last octet of an ATTENTION lets its station take the records that
wait. -/
def Obligations.SnapshotFreezesUntilSent : Prop :=
  (∀ (s : State) (i : StationId) (g : GenId), Receiving s g → Ready s i →
      let st := s.station i
      (st.ctx = none → exec (.read i) s = .next (s.replied g (i.val + 1) (stationException i 0x26 .state none none)))
        ∧ (st.ctx.isSome = true → ¬(st.state = .entry ∧ st.lock = .none) →
          exec (.read i) s = .next (s.replied g (i.val + 1) .snapshot))
        ∧ (st.ctx.isSome = true → st.state = .entry → st.lock = .none →
          exec (.read i) s =
            .next { s.replied g (i.val + 1) .snapshot with
              stations := s.stations.set i { st with lock := .snapshot, paint := st.paint.add true .message } })
        ∧ (st.ctx.isSome = true → ∃ t, exec (.read i) s = .next t ∧ t.frozen i = true
          ∧ (t.station i).ctx = st.ctx))
    ∧ (∀ (s : State) (g : GenId) (i : StationId) octets, s.tx = .sending (.general g) octets →
      s.general[g] = .occupied (i.val + 1) .snapshot →
      (∀ h : GenId, h ≠ g → s.general[h] ≠ .occupied (i.val + 1) .snapshot) →
      (s.station i).state = .entry → (s.station i).lock = .snapshot → (s.station i).ctx.isSome = true →
      (s.station i).records = [] →
      let st := s.station i
      let sent (st : Station) : State :=
        { s with tx := .idle, general := s.general.set g .free, stations := s.stations.set i st }
      let opened : Station := { st with lock := .none, typeAhead := [], paint := st.paint.add true .message }
      (st.overrun = false → exec .lastOctetTransmitted s = .next ((sent opened).drained i st.typeAhead))
        ∧ (st.overrun = true → ∃ t, exec .lastOctetTransmitted s = .next t ∧ t = sent (t.station i)
          ∧ t.station i = { opened with
              lock := .operatorError .overrun, overrun := false, paint := (t.station i).paint }
          ∧ (t.station i).paint.alarm = true))
    ∧ (∀ (s : State) (i : StationId) octets q rest, s.tx = .sending (.attention i) octets →
      (s.station i).records = q :: rest → (s.station i).state ≠ .releasing → s.snapshotSlot i = none →
      ∃ t, exec .lastOctetTransmitted s = .next t ∧ t.tx = .idle
        ∧ (t.station i).records.length < (s.station i).records.length)

/-- R186: a frame cut after `n` octets keeps its length, its header and the octets sent; every payload octet not yet
sent is FFh; and its check is wrong, the one's complement of the right one when none of it had been sent. -/
def Obligations.CutFrameIsCompletedWrong : Prop :=
  ∀ (address kind n : Nat) (payload : List Byte), payload.length ≤ 16384 →
    let whole := frameOctets address kind payload
    let onLine := cutFrame whole n
    n < whole.length →
      onLine.length = whole.length ∧ onLine.take 6 = whole.take 6 ∧ onLine.take n = whole.take n
        ∧ (∀ k, 6 ≤ k → n ≤ k → k + 2 < whole.length → onLine[k]? = some 0xFF)
        ∧ onLine.drop (whole.length - 2) ≠ encodeWord (crc16 ((onLine.drop 2).take (whole.length - 4)))
        ∧ (n + 2 ≤ whole.length →
          onLine.drop (whole.length - 2) = encodeWord (~~~(crc16 ((onLine.drop 2).take (whole.length - 4)))))

/-! ### The Control Unit: stations, queries and events -/

/-- R187: ATTACH STATION refuses in its order, or makes the station BLANK with the values of R46, a clearing full repaint
(R160) and a fresh loop record (R163), and answers DONE. A window of 0 stands for an absent one, which gives 2. R164: a
loop that runs with no station attached has its next visit go to this station, whatever is attached meanwhile. -/
def Obligations.AttachStationMakesBlank : Prop :=
  ∀ (s : State) (g : GenId) (n w : Nat), Receiving s g →
    ((¬(1 ≤ n ∧ n ≤ 16) ∨ 7 < w) →
        exec (.attachStation n w) s = .next (s.replied g 0 (controlException .format 0x06)))
      ∧ ∀ i : StationId, n = i.val + 1 → w ≤ 7 →
        ((s.station i).state ≠ .detached →
          exec (.attachStation n w) s = .next (s.replied g 0 (controlException .state 0x06)))
        ∧ ((s.station i).state = .detached →
          exec (.attachStation n w) s =
            .next { s.replied g 0 (.done 0x06) with
              loop := if s.loop.mode = .running ∧ ∀ j, (s.station j).state = .detached then
                  { s.loop with last := if i.val = 0 then none else some (i - 1) }
                else s.loop
              stations := s.stations.set i
                { state := .blank, lock := .none, records := [], typeAhead := [], overrun := false, ctx := none
                  note := List.replicate 64 0x20, unlockAtEnd := false, reportSlot := none, releaseSlot := none
                  paint := { dirty := [], resume := some .clear, band := none, cursorPending := false
                             alarm := false, marker := .none }
                  link := some { online := false, missCount := 0, n := 0, a := 0, restart := true
                                 window := if w = 0 then 2 else w } } }
            ∧ (s.loop.mode = .running → (∀ j, (s.station j).state = .detached) →
              ∀ t u : State, exec (.attachStation n w) s = .next t → u.loop.last = t.loop.last →
                (u.station i).state ≠ .detached → NextInOrder u i))

/-- R188, R47: DETACH STATION refuses in its order, or clears the station and answers every record of it DETACHED in the
order of R188 before its own DONE. The slots of the station's records are distinct, as one record each has reserved
them. A record of the station in transmission is cut, and one that waits is removed from the transmit queue. A visit to
the station ends uncounted; with no stop pending, nothing else of the loop changes (LoopStopTakesEffect has the pending
stop). The version of a form it drops has one use less, and is freed when it is RETIRED and this was its last (R20,
R21). That the DETACHED exception of a COMPOSE carries no step is the model's reading of R182 (assumption 14). -/
def Obligations.DetachStationAnswersInOrder : Prop :=
  ∀ (s : State) (g : GenId) (n : Nat), Receiving s g →
    (¬(1 ≤ n ∧ n ≤ 16) → exec (.detachStation n) s = .next (s.replied g 0 (controlException .format 0x07)))
      ∧ ∀ i : StationId, n = i.val + 1 →
        ((s.station i).state = .detached →
          exec (.detachStation n) s = .next (s.replied g 0 (controlException .state 0x07)))
        ∧ ((s.station i).state ≠ .detached → s.loop.pendingStop = none → (detachedSlots s i ++ [g]).Nodup →
          ∃ t, exec (.detachStation n) s = .next t
            ∧ t.station i = Station.detachedRecord ∧ t.attention[i] = none
            ∧ (∃ earlier, t.waiting = earlier ++ (detachedSlots s i ++ [g]).map SlotName.general)
            ∧ t.general[g] = .occupied 0 (.done 0x07)
            ∧ (∀ h ∈ detachedSlots s i, ∃ kind, t.general[h] =
                .occupied (i.val + 1) (stationException i kind .detached none none))
            ∧ (∀ h, (s.station i).reportSlot = some h → t.general[h] =
                .occupied (i.val + 1) (stationException i 0x20 .detached none none))
            ∧ (∀ h, (s.station i).releaseSlot = some h → t.general[h] =
                .occupied (i.val + 1) (stationException i 0x27 .detached none none))
            ∧ (∀ h, s.snapshotSlot i = some h → t.general[h] =
                .occupied (i.val + 1) (stationException i 0x26 .detached none none))
            ∧ (∀ q ∈ (s.station i).records, t.general[q.slot] =
                .occupied (i.val + 1) (stationException i (stationKind q.record) .detached none none))
            ∧ (∀ h : GenId, h ∉ detachedSlots s i ++ [g] → t.general[h] = s.general[h])
            ∧ t.freeRows = s.freeRows + rowsHeld (s.station i) ∧ FormDropped s t i
            ∧ (∀ m octets, s.tx = .sending m octets →
                (m = .attention i ∧ s.attention[i].isSome = true ∨ ∃ h, m = .general h ∧ s.snapshotSlot i = some h) →
                ∃ k, (octets ≠ [] → k < octets.length) ∧ t.tx = .completing (cutFrame octets k))
            ∧ ((∀ octets, s.tx ≠ .sending (.attention i) octets) →
                (∀ h octets, s.snapshotSlot i = some h → s.tx ≠ .sending (.general h) octets) → t.tx = s.tx)
            ∧ ((∀ m octets, s.tx = .sending m octets → m ∉ s.waiting) →
                (SlotName.attention i ∈ s.waiting → s.attention[i].isSome = true) →
                t.waiting.filter (fun m => m != .event)
                  = (s.waiting.filter (fun m => m != .event && m != .attention i
                      && !(s.snapshotSlot i).any (fun h => m == .general h)))
                    ++ (detachedSlots s i ++ [g]).map SlotName.general)
            ∧ (∀ x, s.loop.visit = some x → x.station = i →
                t.loop = { s.loop with visit := none, last := some i })
            ∧ ((∀ x, s.loop.visit = some x → x.station ≠ i) → t.loop = s.loop)
            ∧ (∀ j, j ≠ i → t.station j = s.station j ∧ t.attention[j] = s.attention[j])
            ∧ t.rx = .hunting ∧ t.enable = s.enable ∧ t.staging = s.staging ∧ t.nextVersion = s.nextVersion
            ∧ t.pending = s.pending ∧ t.resetInput = s.resetInput ∧ t.holdInput = s.holdInput
            ∧ (∀ e, s.raw.has e = true → t.raw.has e = true))

/-- R189, R190: QUERY COMPOSER is answered with the composer as it stands; QUERY STATION is refused for a number outside
1 to 16 and else answered with the station as it stands, a DETACHED one with its state alone. Neither changes anything
else. -/
def Obligations.QueriesReportState : Prop :=
  (∀ (s : State) (g : GenId), Receiving s g →
      exec .queryComposer s =
        .next (s.replied g 0 (.status
          { mode := s.loop.mode, speed := s.loop.speed, window := s.loop.window, missLimit := s.loop.missLimit
            freeEntries := s.freeEntries, freeDefinitions := s.freeDefinitions, freeLiterals := s.freeLiterals
            freeRows := s.freeRows
            load := s.staging.map (fun x =>
              { id := x.declared.id, fixedCount := x.declared.fixedCount, rowCount := x.declared.rowCount
                literalCount := x.declared.literalCount, literalTotal := x.declared.literalTotal
                fixedReceived := x.fixed.length, rowReceived := x.rowDefs.length
                literalReceived := x.literals.length
                charsReceived := (x.literals.map (fun l => l.text.length)).sum })
            stations := (List.finRange 16).map (fun i => (s.station i).state), raw := s.raw, enable := s.enable })))
    ∧ (∀ (s : State) (g : GenId) (n : Nat), Receiving s g →
      (¬(1 ≤ n ∧ n ≤ 16) → exec (.queryStation n) s = .next (s.replied g 0 (controlException .format 0x0B)))
        ∧ ∀ i : StationId, n = i.val + 1 →
          ((s.station i).link = none →
            exec (.queryStation n) s = .next (s.replied g 0 (.stationStatus (s.station i).state none)))
          ∧ ∀ l, (s.station i).link = some l →
            exec (.queryStation n) s =
              .next (s.replied g 0 (.stationStatus (s.station i).state (some
                { lock := (s.station i).lock
                  ctx := (s.station i).ctx.map (fun c =>
                    { id := (s.versionAt c.entry).id, version := (s.versionAt c.entry).version, n := c.rows.length
                      first := c.first, cursor := c.cursor })
                  inFlight := (l.n - l.a).val, online := l.online, missCount := l.missCount
                  dirty := (s.station i).paint.dirty.length, typeAhead := (s.station i).typeAhead.length }))))

/-- R191, R192: SET EVENTS replaces the enable set by the kinds named, and places a notice when it enables a kind that has
members in the raw set; raising an event adds it to the raw set alone, and places a notice when it is enabled and was not
in the raw set. R193: CLEAR EVENTS removes from the raw set the members of the kinds and stations named, and no others,
whatever is enabled; it places no notice and is answered DONE. That the notice of a SET EVENTS comes before its DONE is
the model's choice (assumption 17). -/
def Obligations.EventSetsAndNotices : Prop :=
  (∀ (s : State) (g : GenId) (kinds : Mask), Receiving s g → EventLaw s →
      ∃ t u, exec (.setEvents kinds) s = .next t ∧ t = u.replied g 0 (.done 0x0C)
        ∧ u = { s with enable := kinds &&& 0x01FF#16, event := u.event, waiting := u.waiting }
        ∧ ((∃ e : Event, s.raw.has e = true ∧ kinds.getLsbD e.kind.bit = true ∧ s.enable.getLsbD e.kind.bit = false) →
            NoticePlaced s u)
        ∧ ((∀ e : Event, s.raw.has e = true → kinds.getLsbD e.kind.bit = true → s.enable.getLsbD e.kind.bit = true) →
            u.event = s.event ∧ u.waiting = s.waiting))
    ∧ (∀ (s : State) (e : Event), EventLaw s →
      SameButEvents s (s.raise e)
        ∧ (∀ f, (s.raise e).raw.has f = (s.raw.has f || decide (f = e)))
        ∧ (if s.enable.getLsbD e.kind.bit = true ∧ s.raw.has e = false then NoticePlaced s (s.raise e)
           else (s.raise e).event = s.event ∧ (s.raise e).waiting = s.waiting))
    ∧ ∀ (s : State) (g : GenId) (kinds : Mask) (stations : Option Mask), Receiving s g →
        ∃ r, exec (.clearEvents kinds stations) s = .next { s.replied g 0 (.done 0x0D) with raw := r }
          ∧ ∀ e : Event, r.has e = (s.raw.has e && !(kinds.getLsbD e.kind.bit && (match e.station, stations with
              | none, _ => true
              | some _, none => true
              | some i, some m => m.getLsbD i.val)))

/-! ### The Template Store -/

/-- R13: LOAD BEGIN refuses in its order, or stages the load with its declared values and empty lists, takes the
reservation at once, and answers DONE. A group with V of 0 is held as R3 says; that it is not refused for values of g
and M is the model's reading (assumption 11). R15, R17: LOAD END and LOAD ABANDON without a staged load are refused; an
incomplete load is abandoned with the index of its first missing entry; a complete one whose every entry is sound is
installed, and any other abandoned with the index of the first entry that fails, in the examination order; LOAD ABANDON
ends the load and is answered DONE. That a ROW field's row octet must be 0 is the model's reading (assumption 12). -/
def Obligations.LoadsBeginAndEnd : Prop :=
  (∀ (s : State) (g : GenId) (p : LoadBegin), Receiving s g →
      let inRange := 1 ≤ p.id ∧ p.id ≤ 250 ∧ p.fixedCount ≤ 128 ∧ p.rowCount ≤ 12 ∧ p.literalCount ≤ 96
        ∧ (p.group.visible = 0 → p.rowCount = 0)
        ∧ (p.group.visible ≠ 0 → p.group.visible ≤ 20 ∧ 1 ≤ p.group.first ∧ p.group.first + p.group.visible ≤ 24
            ∧ 1 ≤ p.group.maxRows ∧ p.group.maxRows ≤ 99 ∧ 1 ≤ p.rowCount)
        ∧ p.literalCount ≤ p.literalTotal ∧ p.literalTotal ≤ 80 * p.literalCount
      let room := (∃ e : EntryId, s.table[e] = none) ∧ p.fixedCount + p.rowCount ≤ s.freeDefinitions
        ∧ p.literalTotal ≤ s.freeLiterals
      (s.staging ≠ none → exec (.loadBegin p) s = .next (s.replied g 0 (controlException .state 0x01)))
        ∧ (s.staging = none → ¬inRange →
          exec (.loadBegin p) s = .next (s.replied g 0 (controlException .format 0x01)))
        ∧ (s.staging = none → inRange → ¬room →
          exec (.loadBegin p) s = .next (s.replied g 0 (controlException .store 0x01)))
        ∧ (s.staging = none → inRange → room →
          ∃ (e : EntryId) (t : State), exec (.loadBegin p) s = .next t ∧ s.table[e] = none
            ∧ t = { s.replied g 0 (.done 0x01) with
                staging := some
                  { entry := e
                    declared := { p with
                      group := if p.group.visible = 0 then
                          { first := 0, visible := 0, maxRows := 0, insertAllowed := false, deleteAllowed := false }
                        else p.group }
                    fixed := [], rowDefs := [], literals := [] } }
            ∧ t.freeEntries = s.freeEntries - 1
            ∧ t.freeDefinitions = s.freeDefinitions - (p.fixedCount + p.rowCount)
            ∧ t.freeLiterals = s.freeLiterals - p.literalTotal))
    ∧ (∀ (s : State) (g : GenId), Receiving s g →
      let limit (k : Nat) := Inbound.exception
        { reason := .limit, target := some (0, 0x03), step := none, index := some k }
      (s.staging = none → exec .loadEnd s = .next (s.replied g 0 (controlException .state 0x03)))
        ∧ ∀ x, s.staging = some x →
          let fc := x.declared.fixedCount
          let rc := x.declared.rowCount
          let lc := x.declared.literalCount
          (x.fixed.length < fc →
            exec .loadEnd s = .next { s.replied g 0 (limit (x.fixed.length + 1)) with staging := none })
          ∧ (fc ≤ x.fixed.length → x.rowDefs.length < rc →
            exec .loadEnd s = .next { s.replied g 0 (limit (fc + x.rowDefs.length + 1)) with staging := none })
          ∧ (fc ≤ x.fixed.length → rc ≤ x.rowDefs.length → x.literals.length < lc →
            exec .loadEnd s = .next { s.replied g 0 (limit (fc + rc + x.literals.length + 1)) with staging := none })
          ∧ (Complete x →
            (SoundTemplate x.declared.group x.fixed x.rowDefs x.literals →
              ∃ t retired, exec .loadEnd s = .next t ∧ t.staging = none
                ∧ t.general[g] = .occupied 0 (.loaded x.declared.id (s.nextVersionOf x.declared.id) retired))
            ∧ (∀ k, 1 ≤ k → k ≤ x.fixed.length + x.rowDefs.length + x.literals.length →
              SoundUpTo x (k - 1) → ¬SoundUpTo x k →
              exec .loadEnd s = .next { s.replied g 0 (limit k) with staging := none })
            ∧ (¬SoundTemplate x.declared.group x.fixed x.rowDefs x.literals →
              ∃ k, 1 ≤ k ∧ k ≤ x.fixed.length + x.rowDefs.length + x.literals.length
                ∧ SoundUpTo x (k - 1) ∧ ¬SoundUpTo x k
                ∧ exec .loadEnd s = .next { s.replied g 0 (limit k) with staging := none })))
    ∧ (∀ (s : State) (g : GenId), Receiving s g →
      (s.staging = none → exec .loadAbandon s = .next (s.replied g 0 (controlException .state 0x04)))
        ∧ ∀ x, s.staging = some x →
          exec .loadAbandon s = .next { s.replied g 0 (.done 0x04) with staging := none })

/-- R14: LOAD PART without a staged load is refused; else its entries go to the ends of their lists, or the whole load is
abandoned when one would exceed a declared count or the declared characters. An undecodable part is refused by the Trunk
Port and leaves the load as it was. -/
def Obligations.LoadPartAppendsOrAbandons : Prop :=
  ∀ (s : State) (g : GenId) (entries : List LoadEntry), Receiving s g →
    (s.staging = none → exec (.loadPart entries) s = .next (s.replied g 0 (controlException .state 0x02)))
      ∧ (∀ x, s.staging = some x →
        let fits := (fieldsOf false entries = []
            ∨ x.fixed.length + (fieldsOf false entries).length ≤ x.declared.fixedCount)
          ∧ (fieldsOf true entries = []
            ∨ x.rowDefs.length + (fieldsOf true entries).length ≤ x.declared.rowCount)
          ∧ (runsOf entries = []
            ∨ x.literals.length + (runsOf entries).length ≤ x.declared.literalCount
              ∧ ((x.literals ++ runsOf entries).map (fun l => l.text.length)).sum ≤ x.declared.literalTotal)
        (fits → exec (.loadPart entries) s =
            .next { s.replied g 0 (.done 0x02) with
              staging := some { x with
                fixed := x.fixed ++ fieldsOf false entries, rowDefs := x.rowDefs ++ fieldsOf true entries
                literals := x.literals ++ runsOf entries } })
          ∧ (¬fits → exec (.loadPart entries) s =
            .next { s.replied g 0 (controlException .load 0x02) with staging := none }))
      ∧ ∀ f, frameSound f = true → f.address = 0 → f.kind = 0x02 → decodeControl 0x02 f.payload = none →
        exec (.frameRefused f) s = .next (s.replied g 0 (controlException .format 0x02))

/-- R15, R16, R19, R21: LOAD END of a complete load that meets R4 to R10 makes it the LIVE version of its id with the next
version number; an earlier LIVE version is retired, freed at once when unused, and named in the LOADED reply. That the
notice of TEMPLATE FREED comes before the reply is the model's choice (assumption 17), and that a ROW field's row octet
must be 0 its reading (assumption 12). -/
def Obligations.LoadEndInstallsLiveVersion : Prop :=
  ∀ (s : State) (g : GenId) (x : Staging), Receiving s g → StoreLaw s → s.staging = some x →
    1 ≤ x.declared.id → x.declared.id ≤ 250 → Complete x →
    SoundTemplate x.declared.group x.fixed x.rowDefs x.literals →
    let id := x.declared.id
    let new : TemplateVersion :=
      { id := id, version := s.nextVersionOf id, status := .live, useCount := 0, group := x.declared.group
        fixed := x.fixed, rowDefs := x.rowDefs, literals := x.literals }
    ∃ t, exec .loadEnd s = .next t ∧ t.table[x.entry] = some new ∧ t.staging = none
      ∧ t.nextVersionOf id = (s.nextVersionOf id + 1) % 256
      ∧ (∀ k, 1 ≤ k → k ≤ 250 → k ≠ id → t.nextVersionOf k = s.nextVersionOf k)
      ∧ ((∀ (e : EntryId) v, s.table[e] = some v → v.id = id → v.status = .retired) →
        t.general = s.general.set g (.occupied 0 (.loaded id new.version none)) ∧ t.raw = s.raw
          ∧ t.event = s.event ∧ t.waiting = s.waiting ++ [.general g] ∧ t.table = s.table.set x.entry (some new))
      ∧ (∀ (e : EntryId) v, s.table[e] = some v → v.id = id → v.status = .live →
        t.general = s.general.set g (.occupied 0 (.loaded id new.version (some v.version)))
          ∧ (v.useCount ≠ 0 → t.table = (s.table.set e (some { v with status := .retired })).set x.entry (some new)
              ∧ t.raw = s.raw ∧ t.event = s.event ∧ t.waiting = s.waiting ++ [.general g])
          ∧ (v.useCount = 0 → t.table = (s.table.set e none).set x.entry (some new)
              ∧ t.raw = s.raw.raise .templateFreed ∧ t.event = (s.raise .templateFreed).event
              ∧ t.waiting = (s.raise .templateFreed).waiting ++ [.general g]))
      ∧ t.stations = s.stations ∧ t.freeRows = s.freeRows ∧ t.loop = s.loop ∧ t.attention = s.attention
      ∧ t.tx = s.tx ∧ t.enable = s.enable ∧ t.rx = .hunting ∧ t.pending = s.pending

/-- R4 to R10, R15: a version that LOAD END has made LIVE is complete and meets every condition on its fields, initial texts, runs and
geometry. That a ROW field's row octet must be 0 is the model's reading (assumption 12). -/
def Obligations.InstalledTemplateIsSound : Prop :=
  ∀ (s t : State) (g : GenId) (x : Staging) (id version : Nat) (retired : Option Nat), Receiving s g →
    s.staging = some x → exec .loadEnd s = .next t → t.general[g] = .occupied 0 (.loaded id version retired) →
    ∃ v, t.table[x.entry] = some v ∧ v.status = .live ∧ v.group = x.declared.group ∧ v.fixed = x.fixed
      ∧ v.rowDefs = x.rowDefs ∧ v.literals = x.literals ∧ Complete x
      ∧ SoundTemplate x.declared.group x.fixed x.rowDefs x.literals

/-- R18, R19, R21: DROP TEMPLATE refuses an id out of range or without a LIVE version; else that version is RETIRED, or
freed at once when unused, and the id has no LIVE version. That the notice of TEMPLATE FREED comes before the DONE is the
model's choice (assumption 17). -/
def Obligations.DropTemplateRetiresLiveVersion : Prop :=
  ∀ (s : State) (g : GenId) (id : Nat), Receiving s g → StoreLaw s →
    (¬(1 ≤ id ∧ id ≤ 250) → exec (.dropTemplate id) s = .next (s.replied g 0 (controlException .format 0x05)))
      ∧ (1 ≤ id → id ≤ 250 → (∀ (e : EntryId) v, s.table[e] = some v → v.id = id → v.status = .retired) →
        exec (.dropTemplate id) s = .next (s.replied g 0 (controlException .template 0x05)))
      ∧ ∀ (e : EntryId) v, 1 ≤ id → id ≤ 250 → s.table[e] = some v → v.id = id → v.status = .live →
        (v.useCount ≠ 0 → exec (.dropTemplate id) s =
            .next { s.replied g 0 (.done 0x05) with table := s.table.set e (some { v with status := .retired }) })
        ∧ (v.useCount = 0 → exec (.dropTemplate id) s =
            .next (State.replied (State.raise { s with table := s.table.set e none } .templateFreed) g 0 (.done 0x05)))
        ∧ ∃ t, exec (.dropTemplate id) s = .next t ∧ (∀ (f : EntryId) w, t.table[f] = some w → w.id = id → w.status = .retired)
          ∧ t.staging = s.staging

/-! ### The station loop -/

/-- R162: LOOP START refuses in its order, or sets the parameters, an absent one (0) to its default, puts every loop
record OFFLINE with miss count 0 and restart mark, and makes the loop RUNNING, or HELD with LOOP HOLD ON raised while the
LOOP HOLD input is asserted; it is answered DONE. That the notice comes before the DONE is the model's choice (assumption 17). R176,
R177: the LOOP HOLD input asserted while RUNNING ends the visit uncounted, resynchronises the station of a paint frame
that is cut, and makes the loop HELD with LOOP HOLD ON raised; with a stop pending the loop becomes STOPPED and the event
is not raised. Deasserted while HELD it makes the loop RUNNING and raises LOOP HOLD OFF. In every other case only the
level changes. That a hold between two visits remembers no station is the model's reading (assumption 22). -/
def Obligations.LoopStartsAndHolds : Prop :=
  (∀ (s : State) (g : GenId) (speed window missLimit : Nat), Receiving s g →
      (s.loop.mode ≠ .stopped →
          exec (.loopStart speed window missLimit) s = .next (s.replied g 0 (controlException .state 0x08)))
        ∧ (s.loop.mode = .stopped → ¬(speed ≤ 3 ∧ window ≤ 15 ∧ missLimit ≤ 7) →
          exec (.loopStart speed window missLimit) s = .next (s.replied g 0 (controlException .format 0x08)))
        ∧ (s.loop.mode = .stopped → speed ≤ 3 → window ≤ 15 → missLimit ≤ 7 →
          ∃ u t : State, exec (.loopStart speed window missLimit) s = .next t
            ∧ u = { s with
                stations := u.stations
                loop := { mode := if s.holdInput then .held else .running
                          speed := if speed = 0 then 2 else speed, window := if window = 0 then 4 else window
                          missLimit := if missLimit = 0 then 3 else missLimit, pendingStop := none, visit := none
                          last := none } }
            ∧ (∀ i, u.station i = { s.station i with
                link := (s.station i).link.map
                  (fun l => { l with online := false, missCount := 0, restart := true }) })
            ∧ t = (if s.holdInput then u.raise .loopHoldOn else u).replied g 0 (.done 0x08)))
    ∧ (∀ s : State,
      (s.loop.mode ≠ .running → exec .loopHoldAsserted s = .next { s with holdInput := true })
        ∧ (s.loop.mode = .running → s.loop.pendingStop = none → (∀ i, ¬paintUnsent s i) →
          exec .loopHoldAsserted s =
            .next { s.raise .loopHoldOn with
              holdInput := true
              loop := { s.loop with mode := .held, visit := none, last := s.loop.visit.map Visit.station } })
        ∧ (∀ i, s.loop.mode = .running → s.loop.pendingStop = none → paintUnsent s i →
          exec .loopHoldAsserted s =
            .next { s.raise .loopHoldOn with
              holdInput := true
              loop := { s.loop with mode := .held, visit := none, last := some i }
              stations := s.stations.set i { s.station i with
                link := (s.station i).link.map (fun l => { l with a := l.n, restart := true })
                paint := (s.station i).repaint } })
        ∧ ∀ g, s.loop.mode = .running → s.loop.pendingStop = some g → (∀ i, (s.station i).state ≠ .releasing) →
          ∃ t, exec .loopHoldAsserted s = .next t ∧ t.holdInput = true ∧ t.loop.mode = .stopped ∧ t.loop.visit = none
            ∧ t.loop.pendingStop = none ∧ t.raw = s.raw ∧ t.general = s.general.set g (.occupied 0 (.done 0x09))
            ∧ t.waiting = s.waiting ++ [.general g])
    ∧ (∀ s : State,
      (s.loop.mode ≠ .held → exec .loopHoldDeasserted s = .next { s with holdInput := false })
        ∧ (s.loop.mode = .held →
          exec .loopHoldDeasserted s =
            .next { s.raise .loopHoldOff with holdInput := false, loop := { s.loop with mode := .running } }))

/-- R175: LOOP STOP is refused STOPPED, or with a stop pending; it takes effect at once when HELD or with no station
attached; else it becomes pending, and takes effect when the visit ends, by an answer, a bad answer, the expiry or a
DETACH of the visited station, which is handled in full first. Its effect: STOPPED; A becomes N at every attached station;
a full repaint for each form; every RELEASING station BLANK with its DONE, told where no record waits at it, which would
be taken in the same act. That a stop RUNNING between two visits waits for the next one is the model's reading of R177
(assumption 20), and so it takes effect when the last station is detached between visits; that its DONE comes last, behind
those of the RELEASE records in ascending order of station, is assumption 21. That a RELEASING station's full-repaint flag
is kept as it stands, clear where its clearing block has been built, is assumption 32. -/
def Obligations.LoopStopTakesEffect : Prop :=
  ∀ (s : State) (g : GenId),
    let stopped (u t : State) :=
      t.loop = { u.loop with mode := .stopped, pendingStop := none, visit := none }
        ∧ t.general[g] = .occupied 0 (.done 0x09) ∧ t.waiting.getLast? = some (.general g)
        ∧ ((∀ i, (u.station i).state = .releasing → (u.station i).records = [] ∧ (u.station i).releaseSlot ≠ none) →
          (releasingSlots u ++ [g]).Nodup →
          t = { u with loop := t.loop, general := t.general, waiting := t.waiting, stations := t.stations }
            ∧ t.waiting = u.waiting ++ (releasingSlots u ++ [g]).map SlotName.general
            ∧ (∀ h : GenId, h ∉ releasingSlots u ++ [g] → t.general[h] = u.general[h])
            ∧ ∀ i, let st := u.station i
              let link := st.link.map (fun l => { l with a := l.n })
              (st.state = .detached → t.station i = st)
                ∧ (st.state ≠ .detached → st.state ≠ .releasing → st.ctx.isSome = true →
                  t.station i = { st with link := link, paint := st.repaint })
                ∧ (st.state ≠ .detached → st.state ≠ .releasing → st.ctx = none →
                  t.station i = { st with
                    link := link, paint := { st.paint with marker := .none, cursorPending := false } })
                ∧ ∀ h, st.state = .releasing → st.releaseSlot = some h →
                  t.general[h] = .occupied (i.val + 1) (.done 0x27)
                    ∧ t.station i = { st with
                      state := .blank, lock := .none, releaseSlot := none, link := link
                      paint := { st.paint with marker := .none, cursorPending := false } })
    (Receiving s g → s.loop.mode = .stopped ∨ s.loop.mode = .running ∧ s.loop.pendingStop ≠ none →
        exec .loopStop s = .next (s.replied g 0 (controlException .state 0x09)))
      ∧ (Receiving s g → s.loop.mode = .running → s.loop.pendingStop = none →
        (∃ i, (s.station i).state ≠ .detached) →
        exec .loopStop s = .next { s with rx := .hunting, loop := { s.loop with pendingStop := some g } })
      ∧ (Receiving s g →
        s.loop.mode = .held ∨ s.loop.mode = .running ∧ s.loop.pendingStop = none ∧ s.loop.visit = none
          ∧ (∀ i, (s.station i).state = .detached) →
        ∃ t, exec .loopStop s = .next t ∧ stopped s.hunting t)
      ∧ ∀ i c, s.loop.pendingStop = some g →
        ((∃ f, Awaiting s i f) ∧ ((∃ e r keys, c = .goodAnswer e r keys) ∨ (∃ octets, c = .badAnswer octets)
            ∨ c = .answerLineIdle ∨ c = .windowExpiry))
          ∨ ((∃ h, Receiving s h) ∧ c = .detachStation (i.val + 1) ∧ (s.station i).state ≠ .detached
            ∧ ((∃ x, s.loop.visit = some x ∧ x.station = i)
              ∨ s.loop.visit = none ∧ ∀ j, j ≠ i → (s.station j).state = .detached)) →
        ∃ u t, exec c { s with loop := { s.loop with pendingStop := none } } = .next u ∧ exec c s = .next t ∧ stopped u t

/-- R164 to R166: the next visit goes to the next attached station of the round, with a paint frame when the station is
ONLINE, has paint work and has room in its window, and with a poll frame otherwise; the loop sends nothing while no
station is attached. The last octet of a paint frame advances N modulo 8 and clears a restart mark the frame carried;
the last octet of either frame opens the answer window. -/
def Obligations.VisitSendsFrame : Prop :=
  (∀ s : State, s.loop.mode = .running → s.loop.visit = none →
      ((∀ i, (s.station i).state = .detached) → exec .visitStart s = .next s)
        ∧ ∀ i l, NextInOrder s i → (s.station i).link = some l →
          let st := s.station i
          let paint := l.online = true ∧ (l.n - l.a).val < l.window
            ∧ (st.paint.resume ≠ none ∨ st.paint.dirty ≠ [] ∨ st.paint.cursorPending = true ∧ st.ctx.isSome = true
              ∨ st.paint.alarm = true)
          (paint →
            let block := buildBlock st (s.versionOf i) l.n
            exec .visitStart s =
              .next { s with
                stations := s.stations.set i { st with paint := block.2 }
                loop := { s.loop with
                  visit := some { station := i, frame := .paint l.n l.restart block.1, sent := false } } })
            ∧ (¬paint → exec .visitStart s =
              .next { s with loop := { s.loop with visit := some { station := i, frame := .poll, sent := false } } }))
    ∧ (∀ (s : State) (i : StationId),
      (s.loop.visit = some { station := i, frame := .poll, sent := false } →
          exec .frameTransmitted s =
            .next { s with loop := { s.loop with visit := some { station := i, frame := .poll, sent := true } } })
        ∧ ∀ number mark orders l,
          s.loop.visit = some { station := i, frame := .paint number mark orders, sent := false } →
          (s.station i).link = some l →
          exec .frameTransmitted s =
            .next { s with
              stations := s.stations.set i { s.station i with
                link := some { l with n := l.n + 1, restart := if mark then false else l.restart } }
              loop := { s.loop with visit := some { station := i, frame := .paint number mark orders, sent := true } } })

/-- R170 to R172: a good answer of an ONLINE station clears its miss count; consistent E and R make A equal to R, and
others resynchronise it. No block that carried the marker is among those rendered here. The first good answer of an
OFFLINE station brings it ONLINE with STATION ONLINE raised, its restart mark set and a full repaint, its E and R
unused. In each case the keys are delivered in their order, each in the state the one before left, and the visit ends. -/
def Obligations.GoodAnswerIsHandled : Prop :=
  (∀ (s : State) (i : StationId) (f : LoopFrame) (l : LoopRecord) (e r : Fin 8) (keys : List Byte), Awaiting s i f →
      s.loop.pendingStop = none → (s.station i).link = some l → l.online = true → keys.length ≤ 12 →
      let after (st : Station) : State :=
        { keys.foldl (State.deliverKey i) { s with stations := s.stations.set i st } with loop := s.loop.visited i }
      let consistent := e = l.n ∧ (r - l.a).val ≤ (l.n - l.a).val
      (consistent → (∀ k, (s.station i).paint.marker = .carried k → (r - l.a).val ≤ (k - l.a).val) →
          exec (.goodAnswer e r keys) s =
            .next (after { s.station i with link := some { l with missCount := 0, a := r } }))
        ∧ (¬consistent → exec (.goodAnswer e r keys) s =
            .next (after { s.station i with
              link := some { l with missCount := 0, a := l.n, restart := true }
              paint := (s.station i).repaint })))
    ∧ (∀ (s : State) (i : StationId) (f : LoopFrame) (l : LoopRecord) (e r : Fin 8) (keys : List Byte), Awaiting s i f →
      s.loop.pendingStop = none → (s.station i).link = some l → l.online = false → keys.length ≤ 12 →
      exec (.goodAnswer e r keys) s =
        .next { keys.foldl (State.deliverKey i)
            { s.raise (.stationOnline i) with
              stations := s.stations.set i { s.station i with
                link := some { l with online := true, missCount := 0, restart := true }
                paint := (s.station i).repaint } } with
          loop := s.loop.visited i })

/-- R158, R171, R43, R45: a good answer that reports the block of the compose-end marker rendered ends COMPOSING, in
ENTRY or in HELD, with the COMPOSED of a pending report placed, and ends RELEASING with the DONE of the RELEASE. In ENTRY
under lock NONE the type-ahead queue is delivered from its head (R37); that the COMPOSED comes behind what it places is the
model's choice (assumption 23). The station has no records waiting, and in the first clause no keystrokes. -/
def Obligations.RenderedMarkerEndsComposing : Prop :=
  (∀ (s : State) (i : StationId) (f : LoopFrame) (l : LoopRecord) (r k : Fin 8), Awaiting s i f →
      s.loop.pendingStop = none → (s.station i).link = some l → l.online = true →
      (s.station i).paint.marker = .carried k → (k - l.a).val < (r - l.a).val → (r - l.a).val ≤ (l.n - l.a).val →
      (s.station i).typeAhead = [] → (s.station i).overrun = false → (s.station i).records = [] →
      let st := s.station i
      ∃ t, exec (.goodAnswer l.n r []) s = .next t
        ∧ t.loop = s.loop.visited i ∧ (t.station i).link = some { l with missCount := 0, a := r }
        ∧ (t.station i).paint.marker = .none ∧ (t.station i).ctx = st.ctx ∧ (t.station i).note = st.note
        ∧ (∀ j, j ≠ i → t.station j = s.station j) ∧ t.freeRows = s.freeRows ∧ t.table = s.table ∧ t.raw = s.raw
        ∧ t.attention = s.attention ∧ t.tx = s.tx ∧ t.rx = s.rx ∧ t.pending = s.pending
        ∧ (st.state = .composing → st.ctx.isSome = true →
          (t.station i).state = (if st.unlockAtEnd then .entry else .held)
            ∧ (t.station i).lock = (if st.unlockAtEnd then
                (if (s.snapshotSlot i).isSome then .snapshot else .none) else .system)
            ∧ (t.station i).unlockAtEnd = false ∧ (t.station i).reportSlot = none
            ∧ (∀ g, st.reportSlot = some g → t.general = s.general.set g (.occupied (i.val + 1) .composed)
                ∧ t.waiting = s.waiting ++ [.general g])
            ∧ (st.reportSlot = none → t.general = s.general ∧ t.waiting = s.waiting))
        ∧ (∀ g, st.state = .releasing → st.releaseSlot = some g →
          (t.station i).state = .blank ∧ (t.station i).lock = .none ∧ (t.station i).releaseSlot = none
            ∧ t.general = s.general.set g (.occupied (i.val + 1) (.done 0x27))
            ∧ t.waiting = s.waiting ++ [.general g]))
    ∧ ∀ (s : State) (i : StationId) (f : LoopFrame) (l : LoopRecord) (r k : Fin 8), Awaiting s i f →
      s.loop.pendingStop = none → (s.station i).link = some l → l.online = true →
      (s.station i).paint.marker = .carried k → (k - l.a).val < (r - l.a).val → (r - l.a).val ≤ (l.n - l.a).val →
      (s.station i).state = .composing → (s.station i).ctx.isSome = true → (s.station i).unlockAtEnd = true →
      s.snapshotSlot i = none → (s.station i).overrun = false → (s.station i).records = [] →
      let st := s.station i
      let opened : State := { s with
        loop := s.loop.visited i
        stations := s.stations.set i { st with
          state := .entry, lock := .none, typeAhead := [], unlockAtEnd := false, reportSlot := none
          link := some { l with missCount := 0, a := r }
          paint := { st.paint.add true .message with marker := .none } } }
      let t := opened.drained i st.typeAhead
      (st.reportSlot = none → exec (.goodAnswer l.n r []) s = .next t)
        ∧ ∀ g, st.reportSlot = some g → exec (.goodAnswer l.n r []) s =
          .next { t with
            general := t.general.set g (.occupied (i.val + 1) .composed), waiting := t.waiting ++ [.general g] }

/-- R174: the expiry of the answer window counts a miss of an ONLINE station, resynchronises it after a paint frame, and
at the miss limit makes it OFFLINE with STATION OFFLINE raised; a RELEASING station then becomes BLANK; a miss of an
OFFLINE station changes nothing. That the RELEASING station's full-repaint flag is kept as it stands, clear where its
clearing block has been built and the visit sent no paint, is the model's choice (assumption 32). -/
def Obligations.WindowExpiryCountsMiss : Prop :=
  ∀ (s : State) (i : StationId) (f : LoopFrame) (l : LoopRecord), Awaiting s i f → s.loop.pendingStop = none →
    (s.station i).link = some l →
    let st := s.station i
    let link : LoopRecord :=
      match f with
      | .poll => { l with missCount := l.missCount + 1 }
      | .paint _ _ _ => { l with missCount := l.missCount + 1, a := l.n, restart := true }
    let paint : Paint :=
      match f with
      | .poll => st.paint
      | .paint _ _ _ => st.repaint
    (l.online = false → exec .windowExpiry s = .next { s with loop := s.loop.visited i })
      ∧ (l.online = true → l.missCount + 1 < s.loop.missLimit →
        exec .windowExpiry s =
          .next { s with
            stations := s.stations.set i { st with link := some link, paint := paint }
            loop := s.loop.visited i })
      ∧ (l.online = true → s.loop.missLimit ≤ l.missCount + 1 → st.state ≠ .releasing →
        exec .windowExpiry s =
          .next { s.raise (.stationOffline i) with
            stations := s.stations.set i { st with
              link := some { link with online := false, a := l.n, missCount := 0 }, paint := paint }
            loop := s.loop.visited i })
      ∧ (∀ g, l.online = true → s.loop.missLimit ≤ l.missCount + 1 → st.state = .releasing →
        st.releaseSlot = some g → st.records = [] →
        ∃ t, exec .windowExpiry s = .next t ∧ (t.station i).state = .blank ∧ (t.station i).lock = .none
          ∧ (t.station i).link = some { link with online := false, a := l.n, missCount := 0 }
          ∧ (t.station i).paint.resume = paint.resume ∧ (t.station i).paint.marker = .none
          ∧ t.general = s.general.set g (.occupied (i.val + 1) (.done 0x27))
          ∧ t.raw = s.raw.raise (.stationOffline i) ∧ (∀ j, j ≠ i → t.station j = s.station j)
          ∧ t.loop = s.loop.visited i)

/-- R173, R197: a bad answer, by its octets or by an idle line, raises LINE CHECK, sets the operator error LINE CHECK in
ENTRY under lock NONE or OPERATOR ERROR alone, and then counts as a miss. That LINE CHECK gives an ALARM also where it
replaces a standing operator error is the model's reading of R173 and R70 (assumption 27). An answer whose octets meet
every condition is a good one (assumption 28). -/
def Obligations.BadAnswerIsLineCheckAndMiss : Prop :=
  ∀ (s : State) (i : StationId) (f : LoopFrame), Awaiting s i f →
    let st := s.station i
    let opens := st.state = .entry ∧ st.ctx.isSome = true ∧ (st.lock = .none ∨ ∃ code, st.lock = .operatorError code)
    (∀ (e r : Fin 8) (keys : List Byte), keys.length ≤ 12 →
        let body := octet (i.val + 1) :: octet (16 * r.val + e.val) :: octet keys.length :: keys
        exec (.badAnswer (body ++ [body.foldl (fun a b => a ^^^ b) 0])) s = exec (.goodAnswer e r keys) s
          ∧ ∀ c, c ≠ body.foldl (fun a b => a ^^^ b) 0 → exec (.badAnswer (body ++ [c])) s = exec .answerLineIdle s)
      ∧ (¬opens →
        ∃ t, exec .answerLineIdle s = .next t ∧ exec .windowExpiry (s.raise (.lineCheck i)) = .next t
          ∧ ∀ octets, readAnswer i octets = none → exec (.badAnswer octets) s = .next t)
      ∧ (opens →
        ∃ t u, exec .answerLineIdle s = .next t ∧ exec .windowExpiry u = .next t
          ∧ (∀ octets, readAnswer i octets = none → exec (.badAnswer octets) s = .next t)
          ∧ u = { s.raise (.lineCheck i) with stations := s.stations.set i (u.station i) }
          ∧ u.station i = { st with lock := .operatorError .lineCheck, paint := (u.station i).paint }
          ∧ (u.station i).paint.alarm = true)

/-! ### Station records -/

/-- R38 to R41, R43: a COMPOSE of a LIVE version, whose rows fit and whose values are good, drops the old form and builds
the new one: COMPOSING with lock SYSTEM, the instances of `built` with every derived one computed from them on a sound
template (R94), the cursor at the field the record names or HOME, the options recorded, and a full repaint that owes the
compose-end marker. The old form's rows return to the pool and its version loses a use, which frees a RETIRED version
without another. The slot is kept for the report or freed. -/
def Obligations.ComposeBuildsForm : Prop :=
  ∀ (s : State) (g : GenId) (i : StationId) (c : ComposeRec) (e : EntryId) (v : TemplateVersion) (built : Context),
    Receiving s g → Ready s i → StoreLaw s → s.table[e] = some v → v.id = c.id → v.status = .live →
    c.rows.length ≤ v.group.maxRows → c.rows.length ≤ s.freeRows + rowsHeld (s.station i) →
    buildContext v e c = .ok built → (s.station i).reportSlot ≠ some g →
    let st := s.station i
    let inFixed := v.fixed.findIdx? (fun d => d.id == c.cursor.id)
    let home (absent : Prop) (ctx : Context) := absent → ctx.first = 1 ∧ ctx.cursor = homePos v ctx
    ∃ t ctx, exec (.compose i c) s = .next t ∧ Confined s t i g
      ∧ t.station i = { st with
          state := .composing, lock := .system, ctx := some ctx
          typeAhead := if c.keepTypeAhead then st.typeAhead else []
          overrun := if c.keepTypeAhead then st.overrun else false
          unlockAtEnd := c.unlock, reportSlot := if c.report then some g else none
          paint := { dirty := [], resume := some .clear, band := none, cursorPending := true
                     alarm := st.paint.alarm, marker := .owed } }
      ∧ ctx = { built with fixed := ctx.fixed, rows := ctx.rows, first := ctx.first, cursor := ctx.cursor }
      ∧ FixedKept v built.fixed ctx.fixed ∧ List.Forall₂ (RowKept v) built.rows ctx.rows
      ∧ ctx.rows.map RowRec.tag = c.rows.map (fun x => if x.tag = 0 then none else some x.tag)
      ∧ (∀ x ∈ ctx.fixed, x.modified = false)
      ∧ (∀ r ∈ ctx.rows, r.operatorCreated = false ∧ ∀ x ∈ r.insts, x.modified = false)
      ∧ (TemplatesSound s → ∀ r d x, v.defOf r = some d → ctx.inst? r = some x → isDerived d = true →
          x = computed v ctx r.position d (initialInst d))
      ∧ home ((∀ d ∈ v.fixed ++ v.rowDefs, d.id ≠ c.cursor.id)
          ∨ inFixed ≠ none ∧ c.cursor.position ≠ 0
          ∨ inFixed = none ∧ (c.cursor.position = 0 ∨ c.rows.length < c.cursor.position)) ctx
      ∧ (∀ j d, inFixed = some j → v.fixed[j]? = some d → c.cursor.position = 0 →
          ctx.first = 1 ∧ ctx.cursor = ⟨d.row, d.col⟩)
      ∧ (∀ j d, inFixed = none → v.rowDefs.findIdx? (fun d => d.id == c.cursor.id) = some j → v.rowDefs[j]? = some d →
          1 ≤ c.cursor.position → c.cursor.position ≤ c.rows.length →
          ctx.first = (if c.cursor.position ≤ v.group.visible then 1
              else min c.cursor.position (max 1 (c.rows.length + 1 - v.group.visible)))
            ∧ ctx.cursor = ⟨v.group.first + c.cursor.position - ctx.first, d.col⟩)
      ∧ t.freeRows + c.rows.length = s.freeRows + rowsHeld st
      ∧ (let low (r : RawEvents) := if 32 ≤ s.freeRows + rowsHeld st ∧ s.freeRows + rowsHeld st - c.rows.length ≤ 31
            then r.raise .poolLow else r
        (st.ctx = none → t.table = s.table.set e (some { v with useCount := v.useCount + 1 }) ∧ t.raw = low s.raw)
          ∧ ∀ old w, st.ctx = some old → s.table[old.entry] = some w →
            (old.entry = e → t.table = s.table ∧ t.raw = low s.raw)
              ∧ (old.entry ≠ e →
                t.table = (s.table.set old.entry (if w.status = .retired ∧ w.useCount = 1 then none
                    else some { w with useCount := w.useCount - 1 })).set e (some { v with useCount := v.useCount + 1 })
                  ∧ t.raw = low (if w.status = .retired ∧ w.useCount = 1 then s.raw.raise .templateFreed else s.raw)))
      ∧ t.general[g] = (if c.report then s.general[g] else .free)
      ∧ ∀ h, st.reportSlot = some h → t.general[h] = .free

/-- R38, R39, R42: a COMPOSE of an id without a LIVE version changes nothing but its exception; one that fails at step
2, 3 or 4 leaves the station BLANK without a form, its rows returned, with the step and entry index of the failure. R40:
steps 3 and 4 take its entries in order, the fixed ones first, and fail at the first that names no settable definition
(FIELD), carries a bad text (FORMAT) or repeats a tag (ROW), with its index. -/
def Obligations.ComposeFailureLeavesBlank : Prop :=
  (∀ (s : State) (g : GenId) (i : StationId) (c : ComposeRec), Receiving s g → Ready s i → StoreLaw s →
      let st := s.station i
      ((∀ (e : EntryId) v, s.table[e] = some v → v.id = c.id → v.status = .retired) →
          exec (.compose i c) s =
            .next (s.replied g (i.val + 1) (stationException i 0x20 .template (some 1) none)))
        ∧ ∀ (e : EntryId) v, s.table[e] = some v → v.id = c.id → v.status = .live → st.reportSlot ≠ some g →
          let fails (reason : Reason) (step : Nat) (index : Option Nat) :=
            ∃ t, exec (.compose i c) s = .next t ∧ Confined s t i g
              ∧ t.station i = { st with
                  state := .blank, lock := .none, ctx := none, typeAhead := [], overrun := false, unlockAtEnd := false
                  reportSlot := none
                  paint := { dirty := [], resume := some .clear, band := none, cursorPending := false
                             alarm := st.paint.alarm, marker := .none } }
              ∧ t.freeRows = s.freeRows + rowsHeld st
              ∧ t.general[g] = .occupied (i.val + 1) (stationException i 0x20 reason (some step) index)
              ∧ t.waiting.getLast? = some (.general g)
              ∧ ∀ h, st.reportSlot = some h → t.general[h] = .free
          (v.group.maxRows < c.rows.length → fails .row 2 none)
            ∧ (c.rows.length ≤ v.group.maxRows → s.freeRows + rowsHeld st < c.rows.length → fails .pool 2 none)
            ∧ ∀ f, c.rows.length ≤ v.group.maxRows → c.rows.length ≤ s.freeRows + rowsHeld st →
              buildContext v e c = .error f → fails f.reason f.step f.index)
    ∧ ∀ (v : TemplateVersion) (e : EntryId) (c : ComposeRec),
      (∀ before x after, c.fixed = before ++ x :: after → (∀ y ∈ before, GoodValue v.fixed y) →
          ((∀ d, v.fixed.find? (fun d => d.id == x.id) = some d → isDerived d = true) →
            buildContext v e c = .error ⟨.field, 3, some (before.length + 1)⟩)
          ∧ (∀ d, v.fixed.find? (fun d => d.id == x.id) = some d → isDerived d = false → hostText d x.text = none →
            buildContext v e c = .error ⟨.format, 3, some (before.length + 1)⟩))
        ∧ (∀ before x after, c.rows = before ++ x :: after → (∀ y ∈ c.fixed, GoodValue v.fixed y) →
          (∀ r ∈ before, ∀ y ∈ r.values, GoodValue v.rowDefs y) →
          ((before.map RowEntry.tag).filter (fun t => t != 0)).Nodup →
          ((∀ y ∈ x.values, GoodValue v.rowDefs y) → x.tag ≠ 0 → (∃ r ∈ before, r.tag = x.tag) →
            buildContext v e c = .error ⟨.row, 4, some (c.fixed.length + before.length + 1)⟩)
          ∧ (∀ b y a, x.values = b ++ y :: a → (∀ z ∈ b, GoodValue v.rowDefs z) →
            (x.tag = 0 ∨ ∀ r ∈ before, r.tag ≠ x.tag) →
            ((∀ d, v.rowDefs.find? (fun d => d.id == y.id) = some d → isDerived d = true) →
              buildContext v e c = .error ⟨.field, 4, some (c.fixed.length + before.length + 1)⟩)
            ∧ (∀ d, v.rowDefs.find? (fun d => d.id == y.id) = some d → isDerived d = false → hostText d y.text = none →
              buildContext v e c = .error ⟨.format, 4, some (c.fixed.length + before.length + 1)⟩)))
        ∧ ((∀ y ∈ c.fixed, GoodValue v.fixed y) → (∀ r ∈ c.rows, ∀ y ∈ r.values, GoodValue v.rowDefs y) →
          ((c.rows.map RowEntry.tag).filter (fun t => t != 0)).Nodup → ∃ built, buildContext v e c = .ok built)

/-- R115 to R117: a SET resolves its reference and checks its text in order, refusing with index 1; an applied SET writes
text and value, clears the modified flag, ends the edit under the cursor and adds the dirty entry of a changed text. -/
def Obligations.SetWritesInstance : Prop :=
  ∀ (s : State) (i : StationId) (g : GenId) (v : TemplateVersion) (c : Context) (ref : FieldRef) (text : Text),
    FormTaken s i g v c →
    let refused (reason : Reason) := exec (.set i ref text) s =
      .next (s.replied g (i.val + 1) (stationException i 0x21 reason none (some 1)))
    let inFixed := v.fixed.findIdx? (fun d => d.id == ref.id)
    let inRow := v.rowDefs.findIdx? (fun d => d.id == ref.id)
    let paint := (s.station i).paint
    (inFixed = none → inRow = none → refused .field)
      ∧ (∀ j d, inFixed = some j → v.fixed[j]? = some d →
        (ref.position ≠ 0 → refused .field)
          ∧ (ref.position = 0 → isDerived d = true → refused .field)
          ∧ (ref.position = 0 → isDerived d = false → hostText d text = none → refused .format)
          ∧ ∀ w x, ref.position = 0 → isDerived d = false → hostText d text = some w → c.fixed[j]? = some x →
            exec (.set i ref text) s =
              .next { s.replied g (i.val + 1) (.done 0x21) with
                stations := s.stations.set i { s.station i with
                  ctx := some { c with
                    fixed := c.fixed.set j { x with text := w.1, value := w.2, modified := false }
                    editing := c.editing && !decide (instAt v c c.cursor = some (.fixed j)) }
                  paint := if x.text = w.1 then paint else paint.add true (.field j) } })
      ∧ ∀ j d, inFixed = none → inRow = some j → v.rowDefs[j]? = some d →
        let p := ref.position
        (p = 0 → refused .field) ∧ (c.rows.length < p → refused .row)
          ∧ (1 ≤ p → p ≤ c.rows.length → isDerived d = true → refused .field)
          ∧ (1 ≤ p → p ≤ c.rows.length → isDerived d = false → hostText d text = none → refused .format)
          ∧ ∀ w r x, 1 ≤ p → isDerived d = false → hostText d text = some w → c.rows[p - 1]? = some r →
            r.insts[j]? = some x →
            let rows := c.rows.set (p - 1)
              { r with insts := r.insts.set j { x with text := w.1, value := w.2, modified := false } }
            ∃ t c', exec (.set i ref text) s = .next t
              ∧ t = { s.replied g (i.val + 1) (.done 0x21) with stations := s.stations.set i (t.station i) }
              ∧ t.station i = { s.station i with ctx := some c', paint := (t.station i).paint }
              ∧ c' = { c with
                  fixed := c'.fixed, rows := c'.rows
                  editing := c.editing && !decide (instAt v c c.cursor = some (.row p j)) }
              ∧ FixedKept v c.fixed c'.fixed ∧ List.Forall₂ (RowKept v) rows c'.rows
              ∧ (x.value = w.2 → c'.fixed = c.fixed ∧ c'.rows = rows
                ∧ (x.text = w.1 → (t.station i).paint = paint)
                ∧ (x.text ≠ w.1 → c.first ≤ p → p < c.first + v.group.visible →
                  (t.station i).paint = paint.add true (.slot (p + 1 - c.first) j)))

/-- R118, R119, R32: APPEND ROW and INSERT ROW make their checks in order, refusing with index 1; an applied one takes a
record from the pool, which raises POOL LOW from 32, and puts the new row at its position; an append is an insertion
behind the last row. R120: DELETE ROW refuses a position outside the row list; else it removes the row, returns its
record, leaves the deleted-tag list alone, clamps the window, and ends the edit of an instance of the removed row. R123:
an edit goes on while the cursor, which keeps its place, is still in the instance it was in, wherever its row has moved,
and is abandoned else. -/
def Obligations.FillRowsJoinAndLeave : Prop :=
  (∀ (s : State) (i : StationId) (g : GenId) (v : TemplateVersion) (c : Context) (p : Nat) (row : RowEntry),
      FormTaken s i g v c →
      let refused (reason : Reason) := exec (.insertRow i p row) s =
        .next (s.replied g (i.val + 1) (stationException i 0x21 reason none (some 1)))
      let n := c.rows.length
      let fresh := applyValues v.rowDefs (v.rowDefs.map initialInst) row.values
      let tag := if row.tag = 0 then none else some row.tag
      let tagFree := row.tag ≤ 65535 ∧ (row.tag = 0 ∨ ∀ r ∈ c.rows, r.tag ≠ some row.tag)
      exec (.appendRow i row) s = exec (.insertRow i (n + 1) row) s
        ∧ (¬(1 ≤ p ∧ p ≤ n + 1) → refused .row)
        ∧ (1 ≤ p → p ≤ n + 1 → v.group.maxRows ≤ n → refused .row)
        ∧ (1 ≤ p → p ≤ n + 1 → n < v.group.maxRows → ¬tagFree → refused .row)
        ∧ (∀ e, 1 ≤ p → p ≤ n + 1 → n < v.group.maxRows → tagFree → fresh = .error e → refused e)
        ∧ (∀ insts, 1 ≤ p → p ≤ n + 1 → n < v.group.maxRows → tagFree → fresh = .ok insts → s.freeRows = 0 →
          refused .pool)
        ∧ ∀ insts, 1 ≤ p → p ≤ n + 1 → n < v.group.maxRows → tagFree → fresh = .ok insts → 0 < s.freeRows →
          let rows := c.rows.take (p - 1) ++ { insts := insts, tag := tag, operatorCreated := false }
            :: c.rows.drop (p - 1)
          ∃ t c', exec (.insertRow i p row) s = .next t ∧ (p = n + 1 → exec (.appendRow i row) s = .next t)
            ∧ Confined s t i g ∧ t.general[g] = .occupied (i.val + 1) (.done 0x21)
            ∧ t.station i = { s.station i with ctx := some c', paint := (t.station i).paint }
            ∧ c' = { c with fixed := c'.fixed, rows := c'.rows, editing := c'.editing }
            ∧ c'.rows.map (fun r => (r.tag, r.operatorCreated)) = rows.map (fun r => (r.tag, r.operatorCreated))
            ∧ (c.editing = false → c'.editing = false ∧ FixedKept v c.fixed c'.fixed
                ∧ List.Forall₂ (RowKept v) rows c'.rows)
            ∧ (∀ r, c.editing = true → instAt v c c.cursor = some r →
              let joined : Context := { c with rows := rows }
              let moved := match r with
                | .fixed j => .fixed j
                | .row k j => if p ≤ k then .row (k + 1) j else .row k j
              EditGoesOn v joined moved c')
            ∧ t.freeRows + 1 = s.freeRows ∧ t.table = s.table ∧ t.attention = s.attention
            ∧ t.raw = (if s.freeRows = 32 then s.raw.raise .poolLow else s.raw))
    ∧ ∀ (s : State) (i : StationId) (g : GenId) (v : TemplateVersion) (c : Context) (p : Nat), FormTaken s i g v c →
      (¬(1 ≤ p ∧ p ≤ c.rows.length) → exec (.deleteRow i p) s =
          .next (s.replied g (i.val + 1) (stationException i 0x21 .row none (some 1))))
        ∧ (1 ≤ p → p ≤ c.rows.length →
          ∃ t c', exec (.deleteRow i p) s = .next t ∧ Quiet s t i g
            ∧ t.general[g] = .occupied (i.val + 1) (.done 0x21)
            ∧ t.station i = { s.station i with ctx := some c', paint := (t.station i).paint }
            ∧ c' = { c with
                fixed := c'.fixed, rows := c'.rows, editing := c'.editing
                first := min (max 1 c.first) (max 1 (c.rows.length - v.group.visible)) }
            ∧ c'.rows.map (fun r => (r.tag, r.operatorCreated))
                = (c.rows.eraseIdx (p - 1)).map (fun r => (r.tag, r.operatorCreated))
            ∧ (c.editing = false → c'.editing = false ∧ FixedKept v c.fixed c'.fixed
                ∧ List.Forall₂ (RowKept v) (c.rows.eraseIdx (p - 1)) c'.rows)
            ∧ (∀ j, instAt v c c.cursor = some (.row p j) → c'.editing = false ∧ FixedKept v c.fixed c'.fixed
                ∧ List.Forall₂ (RowKept v) (c.rows.eraseIdx (p - 1)) c'.rows)
            ∧ (∀ r, c.editing = true → instAt v c c.cursor = some r → (∀ j, r ≠ .row p j) →
              let left : Context := { c with rows := c.rows.eraseIdx (p - 1), first := c'.first }
              let moved := match r with
                | .fixed j => .fixed j
                | .row k j => if p < k then .row (k - 1) j else .row k j
              EditGoesOn v left moved c')
            ∧ t.freeRows = s.freeRows + 1)

/-- R121: TAG ROW refuses a position outside the row list and a tag that another row carries; else it tags or untags the
row, and nothing else changes. That a tag above 65,535, which no record can carry, is refused with ROW as R118 refuses it
is the model's choice (assumption 31). -/
def Obligations.TagRowGivesTag : Prop :=
  ∀ (s : State) (i : StationId) (g : GenId) (v : TemplateVersion) (c : Context) (p tag : Nat), FormTaken s i g v c →
    let good := 1 ≤ p ∧ p ≤ c.rows.length ∧ tag ≤ 65535
      ∧ (tag = 0 ∨ ∀ k r, k + 1 ≠ p → c.rows[k]? = some r → r.tag ≠ some tag)
    (¬good → exec (.tagRow i p tag) s =
        .next (s.replied g (i.val + 1) (stationException i 0x21 .row none (some 1))))
      ∧ ∀ r, good → c.rows[p - 1]? = some r → exec (.tagRow i p tag) s =
        .next { s.replied g (i.val + 1) (.done 0x21) with
          stations := s.stations.set i { s.station i with
            ctx := some { c with
              rows := c.rows.set (p - 1) { r with tag := if tag = 0 then none else some tag } } } }

/-- R122, R74, R123: CURSOR resolves its reference, brings the row it names into the window, and puts the cursor at the
field's start. An edit under way goes on when the cursor is then in the instance it was in, and is abandoned else, with a
changed text to be painted again; no other instance changes. -/
def Obligations.CursorMovesToField : Prop :=
  ∀ (s : State) (i : StationId) (g : GenId) (v : TemplateVersion) (c : Context) (ref : FieldRef), FormTaken s i g v c →
    let refused (reason : Reason) := exec (.cursor i ref) s =
      .next (s.replied g (i.val + 1) (stationException i 0x21 reason none (some 1)))
    let inFixed := v.fixed.findIdx? (fun d => d.id == ref.id)
    let inRow := v.rowDefs.findIdx? (fun d => d.id == ref.id)
    let moves (first : Nat) (q : Pos) :=
      ∃ t c', exec (.cursor i ref) s = .next t
        ∧ t = { s.replied g (i.val + 1) (.done 0x21) with stations := s.stations.set i (t.station i) }
        ∧ t.station i = { s.station i with ctx := some c', paint := (t.station i).paint }
        ∧ c' = { c with fixed := c'.fixed, rows := c'.rows, editing := c'.editing, first := first, cursor := q }
        ∧ (c.editing = false → c'.fixed = c.fixed ∧ c'.rows = c.rows ∧ c'.editing = false)
        ∧ (let after : Context := { c with first := first, cursor := q }
          ∀ r, c.editing = true → instAt v c c.cursor = some r →
            (instAt v after q = some r → c' = after)
              ∧ (instAt v after q ≠ some r → c' = abandoned v after r
                ∧ ((c'.inst? r).map FieldInst.text ≠ (c.inst? r).map FieldInst.text →
                  PaintedAgain v c' (t.station i).paint r)))
        ∧ (q ≠ c.cursor → (t.station i).paint.cursorPending = true)
        ∧ (c.editing = false → q = c.cursor → first = c.first → (t.station i).paint = (s.station i).paint)
    (inFixed = none → inRow = none → refused .field)
      ∧ (∀ j d, inFixed = some j → v.fixed[j]? = some d →
        (ref.position ≠ 0 → refused .field) ∧ (ref.position = 0 → moves c.first ⟨d.row, d.col⟩))
      ∧ ∀ j d, inFixed = none → inRow = some j → v.rowDefs[j]? = some d →
        let p := ref.position
        let first := if c.first ≤ p ∧ p < c.first + v.group.visible then c.first
          else min p (max 1 (c.rows.length + 1 - v.group.visible))
        (p = 0 → refused .field) ∧ (c.rows.length < p → refused .row)
          ∧ (1 ≤ p → p ≤ c.rows.length → moves first ⟨v.group.first + p - first, d.col⟩)

/-- R124, R128: RESET MODIFIED clears every modified flag and the deleted-tag list and changes nothing else; a FILL with
CLEAR MODIFIED does so once all its entries are applied, and then opens the keyboard where UNLOCK asks. Neither is valid
without a form (R111); that the STATE exception of a FILL carries no entry index is the model's reading of R112 and R182
(assumption 14). -/
def Obligations.ModifiedFlagsAreCleared : Prop :=
  ∀ (s : State) (i : StationId) (g : GenId), Receiving s g → Ready s i →
    let cleared (c : Context) : Context := { c with
      fixed := c.fixed.map (fun x => { x with modified := false })
      rows := c.rows.map (fun r => { r with insts := r.insts.map (fun x => { x with modified := false }) })
      deletedTags := [] }
    ((s.station i).ctx = none →
        exec (.resetModified i) s = .next (s.replied g (i.val + 1) (stationException i 0x25 .state none none))
          ∧ ∀ l u, exec (.clearModified i l u) s =
            .next (s.replied g (i.val + 1) (stationException i 0x21 .state none none)))
      ∧ ∀ c, (s.station i).ctx = some c →
        exec (.resetModified i) s =
            .next { s.replied g (i.val + 1) (.done 0x25) with
              stations := s.stations.set i { s.station i with ctx := some (cleared c) } }
          ∧ exec (.clearModified i [] false) s =
            .next { s.replied g (i.val + 1) (.done 0x21) with
              stations := s.stations.set i { s.station i with ctx := some (cleared c) } }
          ∧ (∀ l t c', exec (.recordJoinsQueue i (.fill l false false)) s = .next t →
            t.general[g] = .occupied (i.val + 1) (.done 0x21) → (t.station i).ctx = some c' →
            exec (.clearModified i l false) s =
              .next { t with stations := t.stations.set i { t.station i with ctx := some (cleared c') } })
          ∧ ((s.station i).state = .held → (s.station i).lock = .system → (s.station i).typeAhead = [] →
            (s.station i).overrun = false →
            exec (.clearModified i [] true) s =
              .next { s.replied g (i.val + 1) (.done 0x21) with
                stations := s.stations.set i { s.station i with
                  state := .entry, lock := .none, ctx := some (cleared c)
                  paint := (s.station i).paint.add true .message } })

/-- R114: a FILL applies its entries in record order, each on the form the earlier ones have left, as a FILL of that one
entry would; at the first entry that fails it stops, with that entry's index, the earlier entries stay applied, and its
options are withheld. R124: once every entry is applied UNLOCK acts as the UNLOCK record does, behind CLEAR MODIFIED
(ModifiedFlagsAreCleared); its DONE comes last (assumption 23). A FILL without entries and options only answers DONE.
`again` is the part with another record received in the same slot. -/
def Obligations.FillAppliesEntriesInOrder : Prop :=
  ∀ (s : State) (i : StationId) (g : GenId) (v : TemplateVersion) (c : Context), FormTaken s i g v c →
    let fill (entries : List FillEntry) (unlock clearModified : Bool) :=
      Instr.recordJoinsQueue i (.fill entries unlock clearModified)
    let again (u : State) : State :=
      { u with rx := .frame (some g), general := u.general.set g .reserved, waiting := u.waiting.dropLast }
    exec (fill [] false false) s = .next (s.replied g (i.val + 1) (.done 0x21))
      ∧ ∀ earlier u, exec (fill earlier false false) s = .next u → u.general[g] = .occupied (i.val + 1) (.done 0x21) →
        (∀ clear u' t, exec (fill earlier false clear) s = .next u' → exec (.unlock i) (again u') = .next t →
          exec (fill earlier true clear) s =
            .next { t with general := t.general.set g (.occupied (i.val + 1) (.done 0x21)) })
        ∧ ∀ x t, exec (fill [x] false false) (again u) = .next t →
          (t.general[g] = .occupied (i.val + 1) (.done 0x21) → exec (fill (earlier ++ [x]) false false) s = .next t)
            ∧ ∀ reason later unlock clearModified,
              t.general[g] = .occupied (i.val + 1) (stationException i 0x21 reason none (some 1)) →
              exec (fill (earlier ++ x :: later) unlock clearModified) s =
                (let stopped := stationException i 0x21 reason none (some (earlier.length + 1))
                .next { u with general := u.general.set g (.occupied (i.val + 1) stopped) })

/-- R125: a NOTE of 0 to 64 characters of the composer character set becomes the host note, adds the MESSAGE entry, and
with ALARM gives a pending ALARM; any other is refused with FORMAT. Nothing else changes in either case. R126: LOCK takes
a station from ENTRY to HELD, and nothing of its form changes; it clears the unlock-at-end option in COMPOSING, changes
nothing in HELD and in ATTENTION with a form, and is refused without one (R111). -/
def Obligations.NoteAndLockAreTaken : Prop :=
  (∀ (s : State) (i : StationId) (g : GenId) (alarm : Bool) (text : Text), Receiving s g → Ready s i →
      let good := text.length ≤ 64 ∧ ∀ c ∈ text, 0x20 ≤ c.toNat ∧ c.toNat ≤ 0x7E
      let paint := (s.station i).paint.add (s.station i).ctx.isSome .message
      (good → exec (.note i alarm text) s =
          .next { s.replied g (i.val + 1) (.done 0x22) with
            stations := s.stations.set i { s.station i with
              note := text ++ List.replicate (64 - text.length) 0x20
              paint := if alarm then { paint with alarm := true } else paint } })
        ∧ (¬good → exec (.note i alarm text) s =
          .next (s.replied g (i.val + 1) (stationException i 0x22 .format none none))))
    ∧ ∀ (s : State) (i : StationId) (g : GenId), Receiving s g → Ready s i →
      let st := s.station i
      (st.ctx = none → exec (.lock i) s = .next (s.replied g (i.val + 1) (stationException i 0x23 .state none none)))
        ∧ (st.ctx.isSome = true → st.state = .entry → st.lock ≠ .system →
          exec (.lock i) s =
            .next { s.replied g (i.val + 1) (.done 0x23) with
              stations := s.stations.set i { st with
                state := .held, lock := .system, paint := st.paint.add true .message } })
        ∧ (st.ctx.isSome = true → st.state = .composing →
          exec (.lock i) s =
            .next { s.replied g (i.val + 1) (.done 0x23) with
              stations := s.stations.set i { st with unlockAtEnd := false } })
        ∧ (st.ctx.isSome = true → st.state = .held ∨ st.state = .attention →
          exec (.lock i) s = .next (s.replied g (i.val + 1) (.done 0x23)))

/-- R127, R37: UNLOCK opens the keyboard of a HELD station and of one in ATTENTION, discarding an overrun queue under the
operator error OVERRUN, and else delivering the queue from its head as long as the lock stays NONE; without a form
ATTENTION becomes BLANK, where an overrun queue is discarded and an attention key of the queue latches again; it sets the
unlock-at-end option in COMPOSING, changes nothing in ENTRY, and is refused in BLANK. That the DONE comes behind what the
queue places is the model's choice (assumption 23). -/
def Obligations.UnlockOpensKeyboard : Prop :=
  ∀ (s : State) (i : StationId) (g : GenId), Receiving s g → Ready s i →
    let st := s.station i
    (st.ctx = none → st.state = .blank →
        exec (.unlock i) s = .next (s.replied g (i.val + 1) (stationException i 0x24 .state none none)))
      ∧ (st.ctx.isSome = true → st.state = .entry →
        exec (.unlock i) s = .next (s.replied g (i.val + 1) (.done 0x24)))
      ∧ (st.ctx.isSome = true → st.state = .composing →
        exec (.unlock i) s =
          .next { s.replied g (i.val + 1) (.done 0x24) with
            stations := s.stations.set i { st with unlockAtEnd := true } })
      ∧ (st.ctx.isSome = true → st.state = .held ∨ st.state = .attention → st.lock = .system →
        (st.overrun = false → st.typeAhead = [] → exec (.unlock i) s =
          .next { s.replied g (i.val + 1) (.done 0x24) with
            stations := s.stations.set i { st with
              state := .entry, lock := .none, paint := st.paint.add true .message } })
        ∧ (st.overrun = true → ∃ t, exec (.unlock i) s = .next t
          ∧ t = { s.replied g (i.val + 1) (.done 0x24) with stations := s.stations.set i (t.station i) }
          ∧ t.station i = { st with
              state := .entry, lock := .operatorError .overrun, typeAhead := [], overrun := false
              paint := (t.station i).paint }
          ∧ (t.station i).paint.alarm = true)
        ∧ (∃ t, exec (.unlock i) s = .next t ∧ ((t.station i).lock = .none → (t.station i).typeAhead = []))
        ∧ (st.overrun = false →
          let opened : State := { s with
            stations := s.stations.set i { st with
              state := .entry, lock := .none, typeAhead := [], paint := st.paint.add true .message } }
          exec (.unlock i) s = .next ((opened.drained i st.typeAhead).replied g (i.val + 1) (.done 0x24))))
      ∧ (st.ctx = none → st.state = .attention →
        ∃ t, exec (.unlock i) s = .next t ∧ OpensBlank s t i g 0x24)

/-- R44, R45, R43: a RELEASE drops the form, returns its rows, lowers its version's use count (R20, R21) and gives a
clearing repaint: RELEASING while the loop can paint it, BLANK at once with its DONE when the loop is STOPPED or the station
OFFLINE; a report it supersedes gives its slot back; a station without a form becomes BLANK at once, and its type-ahead
queue is dealt with under R37. That the last adds the MESSAGE entry when it was in ATTENTION is the model's choice between
R44 and R159 (assumption 9), and that the DONE comes behind what the queue places is assumption 23. -/
def Obligations.ReleaseDropsForm : Prop :=
  ∀ (s : State) (i : StationId) (g : GenId), Receiving s g → Ready s i → (s.station i).reportSlot ≠ some g →
    let st := s.station i
    let atOnce := s.loop.mode = .stopped ∨ ∀ l, st.link = some l → l.online = false
    let clearing (m : Marker) : Paint :=
      { dirty := [], resume := some .clear, band := none, cursorPending := false, alarm := st.paint.alarm, marker := m }
    (st.ctx.isSome = true →
        ∃ t, exec (.release i) s = .next t ∧ Confined s t i g ∧ t.freeRows = s.freeRows + rowsHeld st
          ∧ (∀ h, st.reportSlot = some h → t.general[h] = .free) ∧ t.attention = s.attention
          ∧ (∀ e, e ≠ .templateFreed → t.raw.has e = s.raw.has e) ∧ FormDropped s t i
          ∧ (atOnce → t.waiting.filter (fun m => m != .event) = s.waiting.filter (fun m => m != .event) ++ [.general g])
          ∧ (¬atOnce → t.waiting.filter (fun m => m != .event) = s.waiting.filter (fun m => m != .event))
          ∧ (¬atOnce → t.general[g] = s.general[g]
            ∧ t.station i = { st with
                state := .releasing, lock := .system, ctx := none, typeAhead := [], overrun := false
                unlockAtEnd := false, reportSlot := none, releaseSlot := some g, paint := clearing .owed })
          ∧ (atOnce → t.general[g] = .occupied (i.val + 1) (.done 0x27)
            ∧ t.station i = { st with
                state := .blank, lock := .none, ctx := none, typeAhead := [], overrun := false
                unlockAtEnd := false, reportSlot := none, releaseSlot := none, paint := clearing .none }))
      ∧ (st.ctx = none → st.state = .blank → st.lock = .none → st.typeAhead = [] → st.overrun = false →
        exec (.release i) s = .next (s.replied g (i.val + 1) (.done 0x27)))
      ∧ (st.ctx = none → st.state = .blank ∨ st.state = .attention →
        ∃ t, exec (.release i) s = .next t ∧ OpensBlank s t i g 0x27)

/-! ### Keystrokes -/

/-- R25, R36: what becomes of a keystroke delivered to a station, by its state and lock; a type-ahead queue takes 32, and
the first keystroke beyond them sets the overrun flag and raises TYPE-AHEAD OVERRUN. -/
def Obligations.KeystrokeDisposal : Prop :=
  ∀ (s : State) (i : StationId) (k : Byte),
    let st := s.station i
    let t := State.deliverKey i s k
    let queues := st.state = .composing ∨ st.state = .held ∨ st.state = .attention
      ∨ st.state = .entry ∧ st.lock = .snapshot
    (st.state = .releasing ∨ st.state = .detached → t = s)
      ∧ (st.state = .blank → isAttentionKey k = false → t = s)
      ∧ (st.state = .blank → st.lock = .none → isAttentionKey k = true →
        t.attention = s.attention.set i (some k) ∧ t.waiting = s.waiting ++ [.attention i]
          ∧ t.station i = { st with state := .attention, lock := .system, paint := (t.station i).paint }
          ∧ t = { s with
              stations := s.stations.set i (t.station i), attention := t.attention, waiting := t.waiting })
      ∧ (∀ code, st.state = .entry → st.lock = .operatorError code → k ≠ 0xA7 → t = s)
      ∧ (∀ code c, st.state = .entry → st.lock = .operatorError code → st.ctx = some c → st.typeAhead = [] →
        st.overrun = false → k = 0xA7 →
        t = { s with stations := s.stations.set i (t.station i) }
          ∧ t.station i = { st with
              lock := if (s.snapshotSlot i).isSome then .snapshot else .none
              ctx := some { c with adjusted := false }, paint := (t.station i).paint })
      ∧ (queues → st.typeAhead.length < 32 →
        t = { s with stations := s.stations.set i { st with typeAhead := st.typeAhead ++ [k] } })
      ∧ (queues → 32 ≤ st.typeAhead.length → st.overrun = false →
        t = { s.raise (.typeAheadOverrun i) with stations := s.stations.set i { st with overrun := true } })
      ∧ (queues → 32 ≤ st.typeAhead.length → st.overrun = true → t = s)

/-- R52 to R55: a data key in an open field: refused for its place, its class or its room, in this order, with the
operator error and an alarm and nothing written; else written over the character at the cursor or, in insert mode,
before it, the instance modified and in edit, and the cursor one position on while the field lasts. Behind the field's last position
the field is exited, as by TAB with AUTO SKIP, and else to the position after the field; when the exit check fails, the
character stays written. -/
def Obligations.DataKeyIsCheckedAndWritten : Prop :=
  ∀ (s : State) (i : StationId) (v : TemplateVersion) (c : Context) (k : Byte), (s.station i).state = .entry →
    (s.station i).lock = .none → (s.station i).ctx = some c → s.versionAt c.entry = v →
    0x20 ≤ k.toNat → k.toNat ≤ 0x7E →
    let t := State.deliverKey i s k
    let leaves (lock : Lock) (c' : Context) :=
      t = { s with stations := s.stations.set i (t.station i) }
        ∧ t.station i = { s.station i with lock := lock, ctx := some c', paint := (t.station i).paint }
    let refused (code : ErrorCode) := leaves (.operatorError code) { c with adjusted := false }
      ∧ (t.station i).paint.alarm = true
    ((∀ u, under v c = some u → u.field.prot = true) → refused .isProtected)
      ∧ ∀ u, under v c = some u → u.field.prot = false →
        let full := c.insertMode = true ∧ u.inst.text.getLast? ≠ some 0x20
        let o := c.cursor.col - u.field.col
        (u.field.kind = .alpha → isAlphaChar k = false → refused .letters)
          ∧ (∀ p policy, u.field.kind = .numeric p policy →
            ¬((0x30 ≤ k.toNat ∧ k.toNat ≤ 0x39) ∨ k = 0x2E ∨ k = 0x2D ∨ k = 0x20) → refused .numeric)
          ∧ (acceptsKey u.field.kind k = true → full → refused .full)
          ∧ (acceptsKey u.field.kind k = true → ¬full → c.cursor.col + 1 < u.field.col + u.field.width →
            leaves .none { c.modInst u.ref (fun x => { x with
                text := if c.insertMode then x.text.take o ++ k :: (x.text.drop o).dropLast else x.text.set o k
                modified := true }) with
              adjusted := false, editing := true, cursor := ⟨c.cursor.row, c.cursor.col + 1⟩ }
            ∧ (t.station i).paint.cursorPending = true)
          ∧ (acceptsKey u.field.kind k = true → ¬full → c.cursor.col + 1 = u.field.col + u.field.width →
            let x : FieldInst := { u.inst with
              text := if c.insertMode then u.inst.text.take o ++ k :: (u.inst.text.drop o).dropLast
                else u.inst.text.set o k
              modified := true }
            (∀ code, exitCheck u.field x false = .error code →
                KeyRefused s t i code { c.modInst u.ref (fun _ => x) with
                  adjusted := false, editing := true, cursor := fieldStart v c u.ref })
              ∧ ∀ y, exitCheck u.field x false = .ok y →
                ∃ c', Keyed s t i .none c' ∧ Exited v c u.ref (y.leaves x) y.adjusted c'
                  ∧ (u.field.autoSkip = true → MovedAsTab s i c c')
                  ∧ (u.field.autoSkip = false → c'.first = c.first
                    ∧ c'.cursor = if c.cursor.col < 80 then ⟨c.cursor.row, c.cursor.col + 1⟩
                      else if c.cursor.row < 23 then ⟨c.cursor.row + 1, 1⟩ else ⟨1, 1⟩))

/-- R60 to R64, R62: TAB from an edited field. NUMERIC: a text that is no number, or a value that REFUSE keeps out, locks
the keyboard with the cursor at the field's start; a value within its limits is committed and shown in its display form,
and CLAMP commits the limit passed and shows ADJUSTED. TEXT and ALPHA keep their text. Of any kind, a modified field with
MANDATORY FILL whose text would hold a space fails with MANDATORY. -/
def Obligations.FieldExitChecksField : Prop :=
  ∀ (s : State) (i : StationId) (v : TemplateVersion) (c : Context) (u : Under), Keying s i v c → under v c = some u →
    c.editing = true →
    let t := State.deliverKey i s 0x90
    let fails (code : ErrorCode) := KeyRefused s t i code { c with adjusted := false, cursor := fieldStart v c u.ref }
    let ends (text : Text) (value : Option Int) (adjusted : Bool) :=
      (u.field.mandatoryFill = false ∨ u.inst.modified = false ∨ 0x20 ∉ text →
          ∃ c', Keyed s t i .none c' ∧ Exited v c u.ref { u.inst with text := text, value := value } adjusted c')
        ∧ (u.field.mandatoryFill = true → u.inst.modified = true → 0x20 ∈ text → fails .mandatory)
    (u.field.kind = .text ∨ u.field.kind = .alpha → ends u.inst.text u.inst.value false)
      ∧ ∀ p policy, u.field.kind = .numeric p policy →
        let form : NumForm := { width := u.field.width, signed := p.signed, scale := p.scale }
        let below (m : Int) := ∃ lo, p.min = some lo ∧ m < lo
        let above (m : Int) := ∃ hi, p.max = some hi ∧ hi < m
        let commits (value : Option Int) (adjusted : Bool) := ends (displayForm form value) value adjusted
        (parseEntry form u.inst.text = none → fails .numeric)
          ∧ (parseEntry form u.inst.text = some none → commits none false)
          ∧ ∀ m, parseEntry form u.inst.text = some (some m) →
            (¬below m → ¬above m → commits (some m) false)
              ∧ (policy ≠ 0 → below m ∨ above m → fails .range)
              ∧ (∀ lo, policy = 0 → p.min = some lo → m < lo → commits (some lo) true)
              ∧ ∀ hi, policy = 0 → ¬below m → p.max = some hi → hi < m → commits (some hi) true

/-- R56 to R58, R68, R69: DELETE and ERASE EOF edit an open field and are refused elsewhere; ERASE INPUT blanks every
UNPROTECTED field of the form, visible or not, without a check, and moves HOME; INSERT turns the insert mode over and
RESET turns it off. What is no derived field and is not named stays. -/
def Obligations.ErasingKeysEdit : Prop :=
  ∀ (s : State) (i : StationId) (v : TemplateVersion) (c : Context), Keying s i v c →
    let key (k : Byte) := State.deliverKey i s k
    let c0 : Context := { c with adjusted := false }
    (Keyed s (key 0xA6) i .none { c0 with insertMode := !c.insertMode }
        ∧ Keyed s (key 0xA7) i .none { c0 with insertMode := false })
      ∧ ((∀ u, under v c = some u → u.field.prot = true) →
        KeyRefused s (key 0xA0) i .isProtected c0 ∧ KeyRefused s (key 0xA1) i .isProtected c0)
      ∧ (∀ u, under v c = some u → u.field.prot = false →
        let o := c.cursor.col - u.field.col
        let edited (text : Text) : Context :=
          { c0.modInst u.ref (fun x => { x with text := text, modified := true }) with editing := true }
        Keyed s (key 0xA0) i .none (edited (u.inst.text.take o ++ u.inst.text.drop (o + 1) ++ [0x20]))
          ∧ Keyed s (key 0xA1) i .none
            (edited (u.inst.text.take o ++ List.replicate (u.inst.text.length - o) 0x20)))
      ∧ ∃ c', Keyed s (key 0xA2) i .none c'
        ∧ c' = { c0 with fixed := c'.fixed, rows := c'.rows, editing := false, cursor := homePos v c }
        ∧ c'.rows.map (fun r => (r.tag, r.operatorCreated)) = c.rows.map (fun r => (r.tag, r.operatorCreated))
        ∧ ∀ r d x, r ∈ allRefs v c → v.defOf r = some d → c.inst? r = some x → isDerived d = false →
          (d.prot = true → c'.inst? r = some x)
            ∧ (d.prot = false →
              let text := List.replicate d.width 0x20
              let value := if isNumeric d then none else x.value
              c'.inst? r = some { x with
                text := text, value := value
                modified := x.modified || decide (text ≠ x.text) || decide (value ≠ x.value) })

/-- R65 to R67, R85: FIELD EXIT is an ERASE EOF and then a TAB; FIELD MINUS does so in a signed NUMERIC field with the
entry negated, and is refused elsewhere; DUP copies the instance of the row above and exits as TAB, and elsewhere only
sounds the alarm. When the exit check fails, what the key wrote stays. -/
def Obligations.ExitingKeysMoveAsTab : Prop :=
  ∀ (s : State) (i : StationId) (v : TemplateVersion) (c : Context), Keying s i v c →
    let key (k : Byte) := State.deliverKey i s k
    let c0 : Context := { c with adjusted := false }
    let alarms := Keyed s (key 0xA5) i .none c0 ∧ ((key 0xA5).station i).paint.alarm = true
    ((∀ u, under v c = some u → u.field.prot = true) →
        KeyRefused s (key 0xA3) i .isProtected c0 ∧ KeyRefused s (key 0xA4) i .numeric c0 ∧ alarms)
      ∧ ∀ u, under v c = some u → u.field.prot = false →
        let o := c.cursor.col - u.field.col
        key 0xA3 = State.deliverKey i (key 0xA1) 0x90
          ∧ ((∀ p policy, u.field.kind = .numeric p policy → p.signed = false) → KeyRefused s (key 0xA4) i .numeric c0)
          ∧ (∀ p policy, u.field.kind = .numeric p policy → p.signed = true →
            let x : FieldInst := { u.inst with
              text := u.inst.text.take o ++ List.replicate (u.inst.text.length - o) 0x20, modified := true }
            let form : NumForm := { width := u.field.width, signed := true, scale := p.scale }
            (∀ code, exitCheck u.field x true = .error code → KeyRefused s (key 0xA4) i code
                { c0.modInst u.ref (fun _ => x) with editing := true, cursor := fieldStart v c u.ref })
              ∧ (∀ y, exitCheck u.field x true = .ok y → ∃ c', Keyed s (key 0xA4) i .none c'
                ∧ Exited v c u.ref (y.leaves x) y.adjusted c' ∧ MovedAsTab s i c c')
              ∧ (p.scale + 1 ≤ form.digits →
                (∀ m, parseEntry form x.text = some (some m) →
                  exitCheck u.field x true = exitCheck u.field { x with text := displayForm form (some (-m)) } false)
                ∧ ((∀ m, parseEntry form x.text ≠ some (some m)) →
                  exitCheck u.field x true = exitCheck u.field x false)))
          ∧ ((∀ j, u.ref = .fixed j → alarms) ∧ ∀ j, u.ref = .row 1 j → alarms)
          ∧ ∀ p j source, u.ref = .row (p + 1) j → c.inst? (.row p j) = some source →
            let x : FieldInst := { u.inst with
              text := source.text, value := if isNumeric u.field then source.value else u.inst.value, modified := true }
            let b := c.modInst u.ref (fun _ => x)
            (∀ code, exitCheck u.field x false = .error code → ∃ c', KeyRefused s (key 0xA5) i code c'
                ∧ c' = { b with
                    fixed := c'.fixed, rows := c'.rows, adjusted := false, editing := true
                    cursor := fieldStart v c u.ref }
                ∧ FixedKept v b.fixed c'.fixed ∧ List.Forall₂ (RowKept v) b.rows c'.rows)
              ∧ ∀ y, exitCheck u.field x false = .ok y → ∃ c', Keyed s (key 0xA5) i .none c'
                ∧ Exited v c u.ref (y.leaves x) y.adjusted c' ∧ MovedAsTab s i c c'

/-- R77 to R83: TAB, BACKTAB, HOME and NEWLINE exit the field and go where the tab set says, wrapping, or roll the window
by one at the foot or the head of the band. -/
def Obligations.TabKeysMove : Prop :=
  ∀ (s : State) (i : StationId) (v : TemplateVersion) (c : Context), Keying s i v c →
    let moves (k : Byte) := KeyMoves s i v c k
    let q := c.cursor
    let g := v.group.first
    let firstOpen := v.rowDefs.find? (fun d => !d.prot)
    let lastOpen := v.rowDefs.reverse.find? (fun d => !d.prot)
    let onFoot := c.first + v.group.visible ≤ c.rows.length ∧ q.row + 1 = g + v.group.visible
    let onHead := 1 < c.first ∧ q.row = g
    let inside := ∃ u, under v c = some u ∧ u.field.prot = false ∧ u.field.col < q.col
    (∀ a b, firstOpen = some a → lastOpen = some b →
        (onFoot → b.col ≤ q.col → moves 0x90 (c.first + 1) ⟨g + v.group.visible - 1, a.col⟩)
          ∧ (onFoot → moves 0x93 (c.first + 1) ⟨g + v.group.visible - 1, a.col⟩)
          ∧ (¬inside → onHead → q.col ≤ a.col → moves 0x91 (c.first - 1) ⟨g, b.col⟩))
      ∧ (∀ target, ¬(onFoot ∧ ∃ b, lastOpen = some b ∧ b.col ≤ q.col) →
        ForwardTarget v c (fun x => q.before x = true) target → moves 0x90 c.first target)
      ∧ (∀ target, ¬(onFoot ∧ firstOpen ≠ none) → ForwardTarget v c (fun x => q.row < x.row) target →
        moves 0x93 c.first target)
      ∧ (∀ u, under v c = some u → u.field.prot = false → u.field.col < q.col →
        moves 0x91 c.first ⟨q.row, u.field.col⟩)
      ∧ (∀ target, ¬inside → ¬(onHead ∧ ∃ a, firstOpen = some a ∧ q.col ≤ a.col) → BackwardTarget v c target →
        moves 0x91 c.first target)
      ∧ ∀ target, HomeTarget v c target → moves 0x92 c.first target

/-- R75, R84, R86: an arrow key moves the cursor one position, wrapping at the edges of rows 1 to 23, and exits the field
when the target lies outside it; ROLL UP and ROLL DOWN move the window by V − 1, at least 1, as far as its bounds allow,
exit the field of a band row, and leave the cursor and any edit outside the band; with V of 0 they do nothing. -/
def Obligations.ArrowAndRollKeysMove : Prop :=
  ∀ (s : State) (i : StationId) (v : TemplateVersion) (c : Context), Keying s i v c →
    let q := c.cursor
    let arrow (k : Byte) (target : Pos) :=
      (instAt v c target ≠ instAt v c q → KeyMoves s i v c k c.first target)
        ∧ (instAt v c target = instAt v c q →
          Keyed s (State.deliverKey i s k) i .none { c with adjusted := false, cursor := target })
    let V := v.group.visible
    let onBand := v.group.first ≤ q.row ∧ q.row < v.group.first + V
    let bound := max 1 (c.rows.length + 1 - V)
    let step := max 1 (V - 1)
    let roll (k : Byte) (f : Nat) :=
      (V = 0 → Keyed s (State.deliverKey i s k) i .none { c with adjusted := false })
        ∧ (V ≠ 0 → onBand → KeyMoves s i v c k f q)
        ∧ (V ≠ 0 → ¬onBand → Keyed s (State.deliverKey i s k) i .none { c with adjusted := false, first := f })
    (arrow 0x94 (if 1 < q.row then ⟨q.row - 1, q.col⟩ else ⟨23, q.col⟩)
        ∧ arrow 0x95 (if q.row < 23 then ⟨q.row + 1, q.col⟩ else ⟨1, q.col⟩)
        ∧ arrow 0x96 (if 1 < q.col then ⟨q.row, q.col - 1⟩ else if 1 < q.row then ⟨q.row - 1, 80⟩ else ⟨23, 80⟩)
        ∧ arrow 0x97 (if q.col < 80 then ⟨q.row, q.col + 1⟩ else if q.row < 23 then ⟨q.row + 1, 1⟩ else ⟨1, 1⟩))
      ∧ roll 0x98 (min (max 1 (c.first + step)) bound) ∧ roll 0x99 (min (max 1 (c.first - step)) bound)

/-- R87 to R91: ROW INSERT is refused off an allowed band row, with the row list at M and with the pool empty; else, once
the exit check has passed, it puts an untagged row of the operator's at the cursor's slot or behind the last row, takes a
record from the pool and moves the cursor to the new row. That it sets the cursor-pending flag also where the cursor stood
there already is the model's reading of R88 and R75 (assumption 15). ROW DELETE is refused off an occupied allowed slot and with the
deleted-tag list full; else it removes the row under the cursor, with its edit, notes its tag and returns its record. -/
def Obligations.OperatorRowsJoinAndLeave : Prop :=
  ∀ (s : State) (i : StationId) (v : TemplateVersion) (c : Context), Keying s i v c →
    let onBand := v.group.first ≤ c.cursor.row ∧ c.cursor.row < v.group.first + v.group.visible
    let n := c.rows.length
    let shown := c.first + (c.cursor.row - v.group.first)
    let occupied := 1 ≤ shown ∧ shown ≤ n
    let c0 : Context := { c with adjusted := false }
    (let t := State.deliverKey i s 0x9A
      let refused (code : ErrorCode) (c' : Context) := KeyRefused s t i code c'
      let p := if occupied then shown else n + 1
      let fresh : RowRec := { insts := v.rowDefs.map initialInst, tag := none, operatorCreated := true }
      let col := match v.rowDefs.find? (fun d => !d.prot), v.rowDefs.head? with
        | some d, _ => d.col
        | none, some d => d.col
        | none, none => 1
      let joins (b : Context) :=
        let rows := b.rows.take (p - 1) ++ fresh :: b.rows.drop (p - 1)
        ∃ c', t.station i = { s.station i with ctx := some c', paint := (t.station i).paint }
          ∧ c' = { b with
              fixed := c'.fixed, rows := c'.rows, cursor := ⟨v.group.first + p - c.first, col⟩ }
          ∧ FixedKept v b.fixed c'.fixed ∧ List.Forall₂ (RowKept v) rows c'.rows
          ∧ (t.station i).paint.cursorPending = true ∧ t.freeRows + 1 = s.freeRows
          ∧ t.raw = (if s.freeRows = 32 then s.raw.raise .poolLow else s.raw)
          ∧ t = { s with
              stations := t.stations, freeRows := t.freeRows, raw := t.raw, event := t.event, waiting := t.waiting }
          ∧ ∀ j, j ≠ i → t.station j = s.station j
      (v.group.insertAllowed = false ∨ ¬onBand → refused .isProtected c0)
        ∧ (v.group.insertAllowed = true → onBand → v.group.maxRows ≤ n ∨ s.freeRows = 0 → refused .noRoom c0)
        ∧ (v.group.insertAllowed = true → onBand → n < v.group.maxRows → 0 < s.freeRows →
          (c.editing = false ∨ under v c = none → joins c0)
            ∧ ∀ u, under v c = some u → c.editing = true →
              (∀ code, exitCheck u.field u.inst false = .error code →
                  refused code { c0 with cursor := fieldStart v c u.ref })
                ∧ ∀ y, exitCheck u.field u.inst false = .ok y →
                  joins { c0.modInst u.ref (fun _ => y.leaves u.inst) with editing := false, adjusted := y.adjusted }))
      ∧ (let t := State.deliverKey i s 0x9B
        let refused (code : ErrorCode) := KeyRefused s t i code c0
        (v.group.deleteAllowed = false ∨ ¬onBand ∨ ¬occupied → refused .isProtected)
          ∧ ∀ r, v.group.deleteAllowed = true → onBand → occupied → c.rows[shown - 1]? = some r →
            let unlisted := ∃ tag, r.tag = some tag ∧ tag ∉ c.deletedTags
            let noted := r.tag.toList.filter (fun tag => tag ∉ c.deletedTags)
            (unlisted → 99 ≤ c.deletedTags.length → refused .noRoom)
              ∧ (¬unlisted ∨ c.deletedTags.length < 99 →
                ∃ c', t.station i = { s.station i with ctx := some c', paint := (t.station i).paint }
                  ∧ c' = { c0 with
                      fixed := c'.fixed, rows := c.rows.eraseIdx (shown - 1)
                      first := min (max 1 c.first) (max 1 (n - v.group.visible))
                      editing := c.editing && decide (instAt v c c.cursor = none)
                      deletedTags := c.deletedTags ++ noted }
                  ∧ FixedKept v c.fixed c'.fixed ∧ t.freeRows = s.freeRows + 1
                  ∧ t = { s with
                      freeRows := t.freeRows, stations := s.stations.set i (t.station i) }))

/-- R132 to R136: CLEAR latches at once; ENTER and an F key exit the field first, which may fail, then look for the first
mandatory field that was not entered, show it and refuse the key with MANDATORY, and latch when there is none. A latch
leaves the form as it is, makes the station ATTENTION with lock SYSTEM and places its ATTENTION record. -/
def Obligations.AttentionKeyLatches : Prop :=
  ∀ (s : State) (i : StationId) (v : TemplateVersion) (c : Context) (k : Byte), Keying s i v c →
    isAttentionKey k = true →
    let t := State.deliverKey i s k
    let latched (c' : Context) :=
      t = { s with
          stations := s.stations.set i (t.station i), attention := s.attention.set i (some k)
          waiting := s.waiting ++ [.attention i] }
        ∧ t.station i = { s.station i with
            state := .attention, lock := .system, ctx := some c', paint := (t.station i).paint }
    let ends (b : Context) :=
      (firstUnentered v c = none → latched b)
        ∧ (∀ j d, firstUnentered v c = some (.fixed j) → v.fixed[j]? = some d →
          KeyRefused s t i .mandatory { b with cursor := ⟨d.row, d.col⟩ })
        ∧ ∀ p j d, firstUnentered v c = some (.row p j) → v.rowDefs[j]? = some d →
          let first := if c.first ≤ p ∧ p < c.first + v.group.visible then c.first
            else min (max 1 p) (max 1 (c.rows.length + 1 - v.group.visible))
          KeyRefused s t i .mandatory { b with first := first, cursor := ⟨v.group.first + p - first, d.col⟩ }
    (k = 0x81 → latched { c with adjusted := false })
      ∧ (k ≠ 0x81 →
        (c.editing = false ∨ under v c = none → ends { c with adjusted := false })
          ∧ ∀ u, under v c = some u → c.editing = true →
            (∀ code, exitCheck u.field u.inst false = .error code →
                KeyRefused s t i code { c with adjusted := false, cursor := fieldStart v c u.ref })
              ∧ ∀ y, exitCheck u.field u.inst false = .ok y →
                ∃ c', Exited v c u.ref (y.leaves u.inst) y.adjusted c' ∧ c'.first = c.first ∧ c'.cursor = c.cursor
                  ∧ ends c')

/-! ### Numbers -/

/-- R60, R61: a well-formed numeric entry has a value the field may hold; the display form of every value a field may
hold fits its width, and is an entry of that value. -/
def Obligations.DisplayFormIsEntryOfValue : Prop :=
  ∀ f : NumForm, f.scale + 1 ≤ f.digits →
    (∀ t m, parseEntry f t = some (some m) → m.natAbs ≤ 10 ^ f.digits - 1 ∧ (f.signed = false → 0 ≤ m))
      ∧ (∀ m : Int, m.natAbs ≤ 10 ^ f.digits - 1 → (f.signed = false → 0 ≤ m) →
        (displayForm f (some m)).length = f.width ∧ parseEntry f (displayForm f (some m)) = some (some m))
      ∧ (displayForm f none).length = f.width ∧ parseEntry f (displayForm f none) = some none

/-- R97 to R106: rounding is half away from zero; no accumulator leaves the limit; a PRODUCT is the product of its mantissas
brought to scale 4; each addition of a SUM is exact within the limit and notes an excursion at it; and whatever a
computation finds, the fitted value is one the field may hold, SATURATE showing the limit in the direction of the
accumulator, or 0 with it at 0, and HOLD keeping what stood. -/
def Obligations.TallyStaysWithinLimits : Prop :=
  let limited (a : Accumulator) (exact : Int) : Accumulator :=
    if 10 ^ 17 - 1 < exact then { value := 10 ^ 17 - 1, excursion := a.excursion + 1, noted := true }
    else if exact < -(10 ^ 17 - 1) then { value := -(10 ^ 17 - 1), excursion := a.excursion - 1, noted := true }
    else { a with value := exact }
  (∀ (x : Int) (d : Nat), 0 < d → 2 * (d * divRound x d - x).natAbs ≤ d
      ∧ (2 * (d * divRound x d - x).natAbs = d → x.natAbs < (d * divRound x d).natAbs))
    ∧ (∀ (scale : Nat) (values : List (Option Int)), scale ≤ 4 →
      let a := sumAccumulator scale values
      a.value.natAbs ≤ 10 ^ 17 - 1
        ∧ (a.noted = false → a.excursion = 0
          ∧ a.value = (values.map (fun x => x.getD 0 * 10 ^ (4 - scale))).sum))
    ∧ (∀ (sa sb : Nat) (ma mb : Int) (a : Accumulator), productAccumulator sa sb (some ma) (some mb) = some a →
      a.value.natAbs ≤ 10 ^ 17 - 1
        ∧ let q := if sa + sb ≤ 4 then ma * mb * 10 ^ (4 - (sa + sb)) else divRound (ma * mb) (10 ^ (sa + sb - 4))
          a = limited { value := 0, excursion := 0, noted := false } q)
    ∧ (∀ scale, sumAccumulator scale [] = { value := 0, excursion := 0, noted := false })
    ∧ (∀ scale values m, let a := sumAccumulator scale values
      sumAccumulator scale (values ++ [m]) = limited a (a.value + m.getD 0 * 10 ^ (4 - scale)))
    ∧ (∀ sa sb (ma mb : Option Int), ma = none ∨ mb = none → productAccumulator sa sb ma mb = none)
    ∧ ∀ (f : NumForm) (overflow : Nat) (a : Accumulator) (x : FieldInst), f.scale ≤ 4 →
      let y := fitResult f overflow a x
      let q := divRound a.value (10 ^ (4 - f.scale))
      let inRange := a.noted = false ∧ q.natAbs ≤ 10 ^ f.digits - 1 ∧ (q < 0 → f.signed = true)
      (inRange → y.value = some q ∧ y.text = displayForm f (some q) ∧ y.status = .valid ∧ y.excursion = 0)
        ∧ (¬inRange → overflow ≠ 0 → y = { x with status := .held, excursion := a.excursion })
        ∧ (¬inRange → overflow = 0 → y.status = .saturated ∧ y.excursion = a.excursion
          ∧ y.text = displayForm f y.value ∧ y.modified = x.modified
          ∧ (0 < a.value → y.value = some (10 ^ f.digits - 1)) ∧ (a.value = 0 → y.value = some 0)
          ∧ (a.value < 0 → y.value = some (if f.signed then -(10 ^ f.digits - 1) else 0)))

/-! ### Paint -/

/-- R153, R108, R159: the orders of each paint unit, and the message line: the indicator's word in columns 1 to 12 and INS
behind it in insert mode, or the operator error in all 16, followed by the host note. -/
def Obligations.PaintUnitsAreLaidOut : Prop :=
  ∀ (st : Station) (v : TemplateVersion),
    let text (w : List Char) : Text := w.map (fun ch => BitVec.ofNat 8 ch.toNat)
    let padded (n : Nat) (w : Text) : Text := w ++ List.replicate (n - w.length) 0x20
    let insertMode := st.ctx.any (fun c => c.insertMode)
    let word (w : List Char) :=
      indicator st.state st.lock st.ctx
        = padded 12 (text w) ++ text (if insertMode then [' ', 'I', 'N', 'S'] else [' ', ' ', ' ', ' '])
    let shows (code : ErrorCode) (w : List Char) :=
      st.lock = .operatorError code →
        indicator st.state st.lock st.ctx = padded 16 (text (['E', 'R', 'R', ' '] ++ w))
    let field (q : Pos) (d : FieldDef) (x : FieldInst) (orders : List Order) :=
      (isDerived d = true → x.status ≠ .valid → orders = [.position q.row q.col, .attr 3, .text x.text])
        ∧ (isDerived d = false ∨ x.status = .valid →
          (d.attr = 4 → orders = [.position q.row q.col, .attr 0, .text (List.replicate d.width 0x20)])
            ∧ (d.attr ≠ 4 → orders = [.position q.row q.col, .attr d.attr, .text x.text]))
    (unitOrders st v .clear = [.clear]
        ∧ (unitOrders st v .message
          = [.position 24 1, .attr 0, .text (indicator st.state st.lock st.ctx ++ st.note)])
        ∧ (∀ j l, v.literals[j]? = some l →
          (l.attr = 4 → unitOrders st v (.literal j)
              = [.position l.row l.col, .attr 0, .text (List.replicate l.text.length 0x20)])
            ∧ (l.attr ≠ 4 → unitOrders st v (.literal j) = [.position l.row l.col, .attr l.attr, .text l.text]))
        ∧ ∀ c, st.ctx = some c →
          (∀ j d x, v.fixed[j]? = some d → c.fixed[j]? = some x → field ⟨d.row, d.col⟩ d x (unitOrders st v (.field j)))
            ∧ (∀ k j p d r x, p + 1 = c.first + k → 1 ≤ p → c.rows[p - 1]? = some r → v.rowDefs[j]? = some d →
              r.insts[j]? = some x → field ⟨v.group.first + k - 1, d.col⟩ d x (unitOrders st v (.band k j)))
            ∧ ∀ k j, c.rows.length + 1 < c.first + k →
              unitOrders st v (.band k j) = [.position (v.group.first + k - 1) 1, .eraseToRowEnd])
      ∧ ((st.state = .blank ∨ st.state = .releasing → word ['N', 'O', ' ', 'F', 'O', 'R', 'M'])
        ∧ (st.state = .composing → word ['W', 'A', 'I', 'T']) ∧ (st.state = .held → word ['H', 'E', 'L', 'D'])
        ∧ (st.state = .attention → word ['S', 'E', 'N', 'T'])
        ∧ (st.state = .entry →
          (st.lock = .snapshot → word ['R', 'E', 'A', 'D'])
            ∧ (st.lock = .none → st.ctx.any (fun c => c.adjusted) = true →
              word ['A', 'D', 'J', 'U', 'S', 'T', 'E', 'D'])
            ∧ (st.lock = .none → st.ctx.any (fun c => c.adjusted) = false → word [])
            ∧ shows .isProtected ['P', 'R', 'O', 'T', 'E', 'C', 'T', 'E', 'D']
            ∧ shows .numeric ['N', 'U', 'M', 'E', 'R', 'I', 'C'] ∧ shows .letters ['L', 'E', 'T', 'T', 'E', 'R', 'S']
            ∧ shows .range ['R', 'A', 'N', 'G', 'E'] ∧ shows .full ['F', 'U', 'L', 'L']
            ∧ shows .mandatory ['M', 'A', 'N', 'D', 'A', 'T', 'O', 'R', 'Y']
            ∧ shows .noRoom ['N', 'O', ' ', 'R', 'O', 'O', 'M'] ∧ shows .overrun ['O', 'V', 'E', 'R', 'R', 'U', 'N']
            ∧ shows .lineCheck ['L', 'I', 'N', 'E', ' ', 'C', 'H', 'E', 'C', 'K']))

/-- R146, R152, R154 to R157: no paint block is longer than 96 octets, whatever the station shows. A block holds a pending
ALARM, then as many of the units due as fit whole, in their order: the full repaint from its resume point, and behind its
end the dirty list; then the CURSOR that is pending, if it fits. What was not written stays due; the block that holds the
last unit of a full repaint carries an OWED marker. A resume point inside a slot that is now empty is assumption 19. -/
def Obligations.PaintBlockIsBuiltInOrder : Prop :=
  (∀ (st : Station) (v : TemplateVersion) (number : Fin 8), ordersSize (buildBlock st v number).1 ≤ 96)
    ∧ ∀ (st : Station) (v : TemplateVersion) (number : Fin 8),
      let p := st.paint
      let due := dueUnits st v p
      let p' := (buildBlock st v number).2
      dirtyLaw p.dirty = true → (v.group.visible ≠ 0 → v.rowDefs ≠ []) →
      (∀ r, p.resume = some r → r ∈ repaintUnits st v) →
      (.band ∈ p.dirty → ∃ c, st.ctx = some c ∧ v.group.visible ≠ 0
        ∧ ∀ b, p.band = some b → PaintUnit.band b.k b.j ∈ bandUnits v c) →
      (∀ u ∈ due, unitOrders st v u ≠ []) →
      ∃ k, k ≤ due.length
        ∧ (let head : List Order := if p.alarm then [.alarm] else []
          let written := head ++ (due.take k).flatMap (unitOrders st v)
          let last := due.length - (p.dirty.flatMap (entryUnits st v p.band)).length
          (∀ u, due[k]? = some u → 96 < ordersSize written + ordersSize (unitOrders st v u))
            ∧ (∀ c, st.ctx = some c → p.cursorPending = true → ordersSize written + 3 ≤ 96 →
              (buildBlock st v number).1 = written ++ [.cursor c.cursor.row c.cursor.col] ∧ p'.cursorPending = false)
            ∧ (st.ctx = none ∨ p.cursorPending = false ∨ 96 < ordersSize written + 3 →
              (buildBlock st v number).1 = written ∧ p'.cursorPending = p.cursorPending)
            ∧ p'.alarm = false ∧ dueUnits st v p' = due.drop k
            ∧ (k < last → p'.resume = due[k]? ∧ p'.dirty = p.dirty ∧ p'.band = p.band ∧ p'.marker = p.marker)
            ∧ (last ≤ k → p'.resume = none ∧ p'.dirty <:+ p.dirty
              ∧ p'.marker = (if p.resume ≠ none ∧ p.marker = .owed then .carried number else p.marker)))

/-- R159: whatever a step does, a station that stays attached and whose indicator has changed has the MESSAGE entry, or a
full repaint, which paints the message line, is pending. -/
def Obligations.IndicatorChangeIsPainted : Prop :=
  ∀ (s t : State) (i : StationId), step s = .next t →
    let shown (x : State) := indicator (x.station i).state (x.station i).lock (x.station i).ctx
    (s.station i).state ≠ .detached → (t.station i).state ≠ .detached → shown t ≠ shown s →
    (t.station i).paint.resume ≠ none ∨ Dirty.message ∈ (t.station i).paint.dirty

/-! ### The laws of the part -/

/-- R31: the free row records and the rows of all contexts stay the 512 of the pool, whatever the step. -/
def Obligations.StepKeepsRowPool : Prop :=
  ∀ s t : State, RowPoolLaw s → step s = .next t → RowPoolLaw t

/-- R19 to R21: one LIVE version of an id, true use counts, no unused RETIRED version, whatever the step. -/
def Obligations.StepKeepsTemplateStore : Prop :=
  ∀ s t : State, StoreLaw s → step s = .next t → StoreLaw t

/-- R4 to R10, R33, R74, R75, R91, R107: every template in the table stays sound, and every context keeps its shape on it,
every text as wide as its field and every committed value one its field may hold, whatever the step. That a ROW field's
row octet is 0 is the model's reading (assumption 12). -/
def Obligations.StepKeepsForms : Prop :=
  ∀ s t : State, FormLaw s → step s = .next t → FormLaw t

/-- R95, R107, R123: on forms in their shape, every NUMERIC field but an unprotected one in edit shows its value, and every
derived field shows its current result, whatever the step. -/
def Obligations.StepKeepsNumbers : Prop :=
  ∀ s t : State, NumbersLaw s → step s = .next t → NumbersLaw t

/-- R167: no station ever has more blocks in flight than its paint window, whatever the step. R34, R36, R147, R191: the
dirty lists keep their law, the queues their limits and the event sets their bits, whatever the step. -/
def Obligations.StepKeepsPaintWindowAndQueues : Prop :=
  (∀ s t : State, PaintWindowLaw s → step s = .next t → PaintWindowLaw t)
    ∧ ∀ s t : State, DirtyListLaw s ∧ QueueLaw s ∧ EventLaw s → step s = .next t →
      DirtyListLaw t ∧ QueueLaw t ∧ EventLaw t

/-- R24, R28, R43, R45: the state of every station decides its lock, its form and the slots it keeps, whatever the
step. -/
def Obligations.StepKeepsStationStates : Prop :=
  ∀ s t : State, StationLaw s → step s = .next t → StationLaw t
end

