-- ==== Sys2Proof/Laws/State.lean ====
section
/-! SUPPORT. One lemma per field and update of the state: what each of the plain updates leaves and what it writes. -/

namespace Sys2Proof.Machine

variable (s : State)

/-! `State.setStation` -/

@[simp] theorem State.setStation_pending (i : StationId) (st : Station) :
    (s.setStation i st).pending = s.pending := rfl
@[simp] theorem State.setStation_resetInput (i : StationId) (st : Station) :
    (s.setStation i st).resetInput = s.resetInput := rfl
@[simp] theorem State.setStation_holdInput (i : StationId) (st : Station) :
    (s.setStation i st).holdInput = s.holdInput := rfl
@[simp] theorem State.setStation_rx (i : StationId) (st : Station) :
    (s.setStation i st).rx = s.rx := rfl
@[simp] theorem State.setStation_general (i : StationId) (st : Station) :
    (s.setStation i st).general = s.general := rfl
@[simp] theorem State.setStation_attention (i : StationId) (st : Station) :
    (s.setStation i st).attention = s.attention := rfl
@[simp] theorem State.setStation_event (i : StationId) (st : Station) :
    (s.setStation i st).event = s.event := rfl
@[simp] theorem State.setStation_waiting (i : StationId) (st : Station) :
    (s.setStation i st).waiting = s.waiting := rfl
@[simp] theorem State.setStation_tx (i : StationId) (st : Station) :
    (s.setStation i st).tx = s.tx := rfl
@[simp] theorem State.setStation_cuts (i : StationId) (st : Station) :
    (s.setStation i st).cuts = s.cuts := rfl
@[simp] theorem State.setStation_raw (i : StationId) (st : Station) :
    (s.setStation i st).raw = s.raw := rfl
@[simp] theorem State.setStation_enable (i : StationId) (st : Station) :
    (s.setStation i st).enable = s.enable := rfl
@[simp] theorem State.setStation_staging (i : StationId) (st : Station) :
    (s.setStation i st).staging = s.staging := rfl
@[simp] theorem State.setStation_table (i : StationId) (st : Station) :
    (s.setStation i st).table = s.table := rfl
@[simp] theorem State.setStation_nextVersion (i : StationId) (st : Station) :
    (s.setStation i st).nextVersion = s.nextVersion := rfl
@[simp] theorem State.setStation_freeRows (i : StationId) (st : Station) :
    (s.setStation i st).freeRows = s.freeRows := rfl
@[simp] theorem State.setStation_stations (i : StationId) (st : Station) :
    (s.setStation i st).stations = s.stations.set i st := rfl
@[simp] theorem State.setStation_loop (i : StationId) (st : Station) :
    (s.setStation i st).loop = s.loop := rfl

/-! `State.release` -/

@[simp] theorem State.release_pending (g : GenId) :
    (s.release g).pending = s.pending := rfl
@[simp] theorem State.release_resetInput (g : GenId) :
    (s.release g).resetInput = s.resetInput := rfl
@[simp] theorem State.release_holdInput (g : GenId) :
    (s.release g).holdInput = s.holdInput := rfl
@[simp] theorem State.release_rx (g : GenId) :
    (s.release g).rx = s.rx := rfl
@[simp] theorem State.release_general (g : GenId) :
    (s.release g).general = s.general.set g .free := rfl
@[simp] theorem State.release_attention (g : GenId) :
    (s.release g).attention = s.attention := rfl
@[simp] theorem State.release_event (g : GenId) :
    (s.release g).event = s.event := rfl
@[simp] theorem State.release_waiting (g : GenId) :
    (s.release g).waiting = s.waiting := rfl
@[simp] theorem State.release_tx (g : GenId) :
    (s.release g).tx = s.tx := rfl
@[simp] theorem State.release_cuts (g : GenId) :
    (s.release g).cuts = s.cuts := rfl
@[simp] theorem State.release_raw (g : GenId) :
    (s.release g).raw = s.raw := rfl
@[simp] theorem State.release_enable (g : GenId) :
    (s.release g).enable = s.enable := rfl
@[simp] theorem State.release_staging (g : GenId) :
    (s.release g).staging = s.staging := rfl
@[simp] theorem State.release_table (g : GenId) :
    (s.release g).table = s.table := rfl
@[simp] theorem State.release_nextVersion (g : GenId) :
    (s.release g).nextVersion = s.nextVersion := rfl
@[simp] theorem State.release_freeRows (g : GenId) :
    (s.release g).freeRows = s.freeRows := rfl
@[simp] theorem State.release_stations (g : GenId) :
    (s.release g).stations = s.stations := rfl
@[simp] theorem State.release_loop (g : GenId) :
    (s.release g).loop = s.loop := rfl

/-! `State.place` -/

@[simp] theorem State.place_pending (g : GenId) (n : Nat) (r : Inbound) :
    (s.place g n r).pending = s.pending := rfl
@[simp] theorem State.place_resetInput (g : GenId) (n : Nat) (r : Inbound) :
    (s.place g n r).resetInput = s.resetInput := rfl
@[simp] theorem State.place_holdInput (g : GenId) (n : Nat) (r : Inbound) :
    (s.place g n r).holdInput = s.holdInput := rfl
@[simp] theorem State.place_rx (g : GenId) (n : Nat) (r : Inbound) :
    (s.place g n r).rx = s.rx := rfl
@[simp] theorem State.place_general (g : GenId) (n : Nat) (r : Inbound) :
    (s.place g n r).general = s.general.set g (.occupied n r) := rfl
@[simp] theorem State.place_attention (g : GenId) (n : Nat) (r : Inbound) :
    (s.place g n r).attention = s.attention := rfl
@[simp] theorem State.place_event (g : GenId) (n : Nat) (r : Inbound) :
    (s.place g n r).event = s.event := rfl
@[simp] theorem State.place_waiting (g : GenId) (n : Nat) (r : Inbound) :
    (s.place g n r).waiting = s.waiting ++ [.general g] := rfl
@[simp] theorem State.place_tx (g : GenId) (n : Nat) (r : Inbound) :
    (s.place g n r).tx = s.tx := rfl
@[simp] theorem State.place_cuts (g : GenId) (n : Nat) (r : Inbound) :
    (s.place g n r).cuts = s.cuts := rfl
@[simp] theorem State.place_raw (g : GenId) (n : Nat) (r : Inbound) :
    (s.place g n r).raw = s.raw := rfl
@[simp] theorem State.place_enable (g : GenId) (n : Nat) (r : Inbound) :
    (s.place g n r).enable = s.enable := rfl
@[simp] theorem State.place_staging (g : GenId) (n : Nat) (r : Inbound) :
    (s.place g n r).staging = s.staging := rfl
@[simp] theorem State.place_table (g : GenId) (n : Nat) (r : Inbound) :
    (s.place g n r).table = s.table := rfl
@[simp] theorem State.place_nextVersion (g : GenId) (n : Nat) (r : Inbound) :
    (s.place g n r).nextVersion = s.nextVersion := rfl
@[simp] theorem State.place_freeRows (g : GenId) (n : Nat) (r : Inbound) :
    (s.place g n r).freeRows = s.freeRows := rfl
@[simp] theorem State.place_stations (g : GenId) (n : Nat) (r : Inbound) :
    (s.place g n r).stations = s.stations := rfl
@[simp] theorem State.place_loop (g : GenId) (n : Nat) (r : Inbound) :
    (s.place g n r).loop = s.loop := rfl

/-! `State.placeAttention` -/

@[simp] theorem State.placeAttention_pending (i : StationId) (k : Byte) :
    (s.placeAttention i k).pending = s.pending := rfl
@[simp] theorem State.placeAttention_resetInput (i : StationId) (k : Byte) :
    (s.placeAttention i k).resetInput = s.resetInput := rfl
@[simp] theorem State.placeAttention_holdInput (i : StationId) (k : Byte) :
    (s.placeAttention i k).holdInput = s.holdInput := rfl
@[simp] theorem State.placeAttention_rx (i : StationId) (k : Byte) :
    (s.placeAttention i k).rx = s.rx := rfl
@[simp] theorem State.placeAttention_general (i : StationId) (k : Byte) :
    (s.placeAttention i k).general = s.general := rfl
@[simp] theorem State.placeAttention_attention (i : StationId) (k : Byte) :
    (s.placeAttention i k).attention = s.attention.set i (some k) := rfl
@[simp] theorem State.placeAttention_event (i : StationId) (k : Byte) :
    (s.placeAttention i k).event = s.event := rfl
@[simp] theorem State.placeAttention_waiting (i : StationId) (k : Byte) :
    (s.placeAttention i k).waiting = s.waiting ++ [.attention i] := rfl
@[simp] theorem State.placeAttention_tx (i : StationId) (k : Byte) :
    (s.placeAttention i k).tx = s.tx := rfl
@[simp] theorem State.placeAttention_cuts (i : StationId) (k : Byte) :
    (s.placeAttention i k).cuts = s.cuts := rfl
@[simp] theorem State.placeAttention_raw (i : StationId) (k : Byte) :
    (s.placeAttention i k).raw = s.raw := rfl
@[simp] theorem State.placeAttention_enable (i : StationId) (k : Byte) :
    (s.placeAttention i k).enable = s.enable := rfl
@[simp] theorem State.placeAttention_staging (i : StationId) (k : Byte) :
    (s.placeAttention i k).staging = s.staging := rfl
@[simp] theorem State.placeAttention_table (i : StationId) (k : Byte) :
    (s.placeAttention i k).table = s.table := rfl
@[simp] theorem State.placeAttention_nextVersion (i : StationId) (k : Byte) :
    (s.placeAttention i k).nextVersion = s.nextVersion := rfl
@[simp] theorem State.placeAttention_freeRows (i : StationId) (k : Byte) :
    (s.placeAttention i k).freeRows = s.freeRows := rfl
@[simp] theorem State.placeAttention_stations (i : StationId) (k : Byte) :
    (s.placeAttention i k).stations = s.stations := rfl
@[simp] theorem State.placeAttention_loop (i : StationId) (k : Byte) :
    (s.placeAttention i k).loop = s.loop := rfl

/-! `State.setEntry` -/

@[simp] theorem State.setEntry_pending (e : EntryId) (o : Option TemplateVersion) :
    (s.setEntry e o).pending = s.pending := rfl
@[simp] theorem State.setEntry_resetInput (e : EntryId) (o : Option TemplateVersion) :
    (s.setEntry e o).resetInput = s.resetInput := rfl
@[simp] theorem State.setEntry_holdInput (e : EntryId) (o : Option TemplateVersion) :
    (s.setEntry e o).holdInput = s.holdInput := rfl
@[simp] theorem State.setEntry_rx (e : EntryId) (o : Option TemplateVersion) :
    (s.setEntry e o).rx = s.rx := rfl
@[simp] theorem State.setEntry_general (e : EntryId) (o : Option TemplateVersion) :
    (s.setEntry e o).general = s.general := rfl
@[simp] theorem State.setEntry_attention (e : EntryId) (o : Option TemplateVersion) :
    (s.setEntry e o).attention = s.attention := rfl
@[simp] theorem State.setEntry_event (e : EntryId) (o : Option TemplateVersion) :
    (s.setEntry e o).event = s.event := rfl
@[simp] theorem State.setEntry_waiting (e : EntryId) (o : Option TemplateVersion) :
    (s.setEntry e o).waiting = s.waiting := rfl
@[simp] theorem State.setEntry_tx (e : EntryId) (o : Option TemplateVersion) :
    (s.setEntry e o).tx = s.tx := rfl
@[simp] theorem State.setEntry_cuts (e : EntryId) (o : Option TemplateVersion) :
    (s.setEntry e o).cuts = s.cuts := rfl
@[simp] theorem State.setEntry_raw (e : EntryId) (o : Option TemplateVersion) :
    (s.setEntry e o).raw = s.raw := rfl
@[simp] theorem State.setEntry_enable (e : EntryId) (o : Option TemplateVersion) :
    (s.setEntry e o).enable = s.enable := rfl
@[simp] theorem State.setEntry_staging (e : EntryId) (o : Option TemplateVersion) :
    (s.setEntry e o).staging = s.staging := rfl
@[simp] theorem State.setEntry_table (e : EntryId) (o : Option TemplateVersion) :
    (s.setEntry e o).table = s.table.set e o := rfl
@[simp] theorem State.setEntry_nextVersion (e : EntryId) (o : Option TemplateVersion) :
    (s.setEntry e o).nextVersion = s.nextVersion := rfl
@[simp] theorem State.setEntry_freeRows (e : EntryId) (o : Option TemplateVersion) :
    (s.setEntry e o).freeRows = s.freeRows := rfl
@[simp] theorem State.setEntry_stations (e : EntryId) (o : Option TemplateVersion) :
    (s.setEntry e o).stations = s.stations := rfl
@[simp] theorem State.setEntry_loop (e : EntryId) (o : Option TemplateVersion) :
    (s.setEntry e o).loop = s.loop := rfl

/-! `State.openVisit` -/

@[simp] theorem State.openVisit_pending (i : StationId) (f : LoopFrame) :
    (s.openVisit i f).pending = s.pending := rfl
@[simp] theorem State.openVisit_resetInput (i : StationId) (f : LoopFrame) :
    (s.openVisit i f).resetInput = s.resetInput := rfl
@[simp] theorem State.openVisit_holdInput (i : StationId) (f : LoopFrame) :
    (s.openVisit i f).holdInput = s.holdInput := rfl
@[simp] theorem State.openVisit_rx (i : StationId) (f : LoopFrame) :
    (s.openVisit i f).rx = s.rx := rfl
@[simp] theorem State.openVisit_general (i : StationId) (f : LoopFrame) :
    (s.openVisit i f).general = s.general := rfl
@[simp] theorem State.openVisit_attention (i : StationId) (f : LoopFrame) :
    (s.openVisit i f).attention = s.attention := rfl
@[simp] theorem State.openVisit_event (i : StationId) (f : LoopFrame) :
    (s.openVisit i f).event = s.event := rfl
@[simp] theorem State.openVisit_waiting (i : StationId) (f : LoopFrame) :
    (s.openVisit i f).waiting = s.waiting := rfl
@[simp] theorem State.openVisit_tx (i : StationId) (f : LoopFrame) :
    (s.openVisit i f).tx = s.tx := rfl
@[simp] theorem State.openVisit_cuts (i : StationId) (f : LoopFrame) :
    (s.openVisit i f).cuts = s.cuts := rfl
@[simp] theorem State.openVisit_raw (i : StationId) (f : LoopFrame) :
    (s.openVisit i f).raw = s.raw := rfl
@[simp] theorem State.openVisit_enable (i : StationId) (f : LoopFrame) :
    (s.openVisit i f).enable = s.enable := rfl
@[simp] theorem State.openVisit_staging (i : StationId) (f : LoopFrame) :
    (s.openVisit i f).staging = s.staging := rfl
@[simp] theorem State.openVisit_table (i : StationId) (f : LoopFrame) :
    (s.openVisit i f).table = s.table := rfl
@[simp] theorem State.openVisit_nextVersion (i : StationId) (f : LoopFrame) :
    (s.openVisit i f).nextVersion = s.nextVersion := rfl
@[simp] theorem State.openVisit_freeRows (i : StationId) (f : LoopFrame) :
    (s.openVisit i f).freeRows = s.freeRows := rfl
@[simp] theorem State.openVisit_stations (i : StationId) (f : LoopFrame) :
    (s.openVisit i f).stations = s.stations := rfl
@[simp] theorem State.openVisit_loop (i : StationId) (f : LoopFrame) :
    (s.openVisit i f).loop = { s.loop with visit := some { station := i, frame := f, sent := false } } := rfl

/-! `State.hunting` -/

@[simp] theorem State.hunting_pending :
    s.hunting.pending = s.pending := rfl
@[simp] theorem State.hunting_resetInput :
    s.hunting.resetInput = s.resetInput := rfl
@[simp] theorem State.hunting_holdInput :
    s.hunting.holdInput = s.holdInput := rfl
@[simp] theorem State.hunting_rx :
    s.hunting.rx = .hunting := rfl
@[simp] theorem State.hunting_general :
    s.hunting.general = s.general := rfl
@[simp] theorem State.hunting_attention :
    s.hunting.attention = s.attention := rfl
@[simp] theorem State.hunting_event :
    s.hunting.event = s.event := rfl
@[simp] theorem State.hunting_waiting :
    s.hunting.waiting = s.waiting := rfl
@[simp] theorem State.hunting_tx :
    s.hunting.tx = s.tx := rfl
@[simp] theorem State.hunting_cuts :
    s.hunting.cuts = s.cuts := rfl
@[simp] theorem State.hunting_raw :
    s.hunting.raw = s.raw := rfl
@[simp] theorem State.hunting_enable :
    s.hunting.enable = s.enable := rfl
@[simp] theorem State.hunting_staging :
    s.hunting.staging = s.staging := rfl
@[simp] theorem State.hunting_table :
    s.hunting.table = s.table := rfl
@[simp] theorem State.hunting_nextVersion :
    s.hunting.nextVersion = s.nextVersion := rfl
@[simp] theorem State.hunting_freeRows :
    s.hunting.freeRows = s.freeRows := rfl
@[simp] theorem State.hunting_stations :
    s.hunting.stations = s.stations := rfl
@[simp] theorem State.hunting_loop :
    s.hunting.loop = s.loop := rfl

/-! `State.replied` -/

@[simp] theorem State.replied_pending (g : GenId) (n : Nat) (r : Inbound) :
    (s.replied g n r).pending = s.pending := rfl
@[simp] theorem State.replied_resetInput (g : GenId) (n : Nat) (r : Inbound) :
    (s.replied g n r).resetInput = s.resetInput := rfl
@[simp] theorem State.replied_holdInput (g : GenId) (n : Nat) (r : Inbound) :
    (s.replied g n r).holdInput = s.holdInput := rfl
@[simp] theorem State.replied_rx (g : GenId) (n : Nat) (r : Inbound) :
    (s.replied g n r).rx = .hunting := rfl
@[simp] theorem State.replied_general (g : GenId) (n : Nat) (r : Inbound) :
    (s.replied g n r).general = s.general.set g (.occupied n r) := rfl
@[simp] theorem State.replied_attention (g : GenId) (n : Nat) (r : Inbound) :
    (s.replied g n r).attention = s.attention := rfl
@[simp] theorem State.replied_event (g : GenId) (n : Nat) (r : Inbound) :
    (s.replied g n r).event = s.event := rfl
@[simp] theorem State.replied_waiting (g : GenId) (n : Nat) (r : Inbound) :
    (s.replied g n r).waiting = s.waiting ++ [.general g] := rfl
@[simp] theorem State.replied_tx (g : GenId) (n : Nat) (r : Inbound) :
    (s.replied g n r).tx = s.tx := rfl
@[simp] theorem State.replied_cuts (g : GenId) (n : Nat) (r : Inbound) :
    (s.replied g n r).cuts = s.cuts := rfl
@[simp] theorem State.replied_raw (g : GenId) (n : Nat) (r : Inbound) :
    (s.replied g n r).raw = s.raw := rfl
@[simp] theorem State.replied_enable (g : GenId) (n : Nat) (r : Inbound) :
    (s.replied g n r).enable = s.enable := rfl
@[simp] theorem State.replied_staging (g : GenId) (n : Nat) (r : Inbound) :
    (s.replied g n r).staging = s.staging := rfl
@[simp] theorem State.replied_table (g : GenId) (n : Nat) (r : Inbound) :
    (s.replied g n r).table = s.table := rfl
@[simp] theorem State.replied_nextVersion (g : GenId) (n : Nat) (r : Inbound) :
    (s.replied g n r).nextVersion = s.nextVersion := rfl
@[simp] theorem State.replied_freeRows (g : GenId) (n : Nat) (r : Inbound) :
    (s.replied g n r).freeRows = s.freeRows := rfl
@[simp] theorem State.replied_stations (g : GenId) (n : Nat) (r : Inbound) :
    (s.replied g n r).stations = s.stations := rfl
@[simp] theorem State.replied_loop (g : GenId) (n : Nat) (r : Inbound) :
    (s.replied g n r).loop = s.loop := rfl

/-! Stations -/

@[simp] theorem State.station_setStation_self (i : StationId) (st : Station) : (s.setStation i st).station i = st := by
  simp [State.station, State.setStation]

theorem State.station_setStation_ne {i j : StationId} (st : Station) (h : j ≠ i) :
    (s.setStation i st).station j = s.station j := by
  simp only [State.station, State.setStation]
  exact Vector.getElem_set_ne _ _ (fun e => h (Fin.ext e.symm))

@[simp] theorem State.setStation_station (i : StationId) : s.setStation i (s.station i) = s := by
  simp [State.setStation, State.station]

theorem State.modStation_eq (i : StationId) (f : Station → Station) :
    s.modStation i f = s.setStation i (f (s.station i)) := rfl

end Sys2Proof.Machine
end

