-- ==== Sys2Proof/Laws/Work.lean ====
section
/-! SUPPORT. What one act on a station leaves alone, said once for each operation of Machine/Work.lean, Tally.lean and
Editor.lean: the template version, the loop record, the record queue, the host note, the slots the station keeps, and
the table entry of the context. -/

namespace Sys2Proof.Machine

/-- What every operation of an act leaves alone. -/
structure Keeps (w w' : Work) : Prop where
  version : w'.v = w.v
  snapshot : w'.snapshot = w.snapshot
  entry : w'.c.entry = w.c.entry
  link : w'.st.link = w.st.link
  records : w'.st.records = w.st.records
  note : w'.st.note = w.st.note
  reportSlot : w'.st.reportSlot = w.st.reportSlot
  releaseSlot : w'.st.releaseSlot = w.st.releaseSlot

namespace Keeps

theorem refl (w : Work) : Keeps w w := ⟨rfl, rfl, rfl, rfl, rfl, rfl, rfl, rfl⟩

theorem trans {a b c : Work} (h : Keeps a b) (k : Keeps b c) : Keeps a c :=
  ⟨k.1.trans h.1, k.2.trans h.2, k.3.trans h.3, k.4.trans h.4, k.5.trans h.5, k.6.trans h.6, k.7.trans h.7,
    k.8.trans h.8⟩

theorem foldl {α : Type} {f : Work → α → Work} (hf : ∀ w x, Keeps w (f w x)) (l : List α) (w : Work) :
    Keeps w (l.foldl f w) := by
  induction l generalizing w with
  | nil => exact refl w
  | cons x l ih => exact (hf w x).trans (ih _)

theorem foldl_pair {α β : Type} {f : Work × β → α → Work × β} (hf : ∀ p x, Keeps p.1 (f p x).1) (l : List α)
    (p : Work × β) : Keeps p.1 (l.foldl f p).1 := by
  induction l generalizing p with
  | nil => exact refl p.1
  | cons x l ih => exact (hf p x).trans (ih _)

end Keeps

/-! ### Work.lean -/

theorem Work.dirty_keeps (w : Work) (d : Dirty) : Keeps w (w.dirty d) := ⟨rfl, rfl, rfl, rfl, rfl, rfl, rfl, rfl⟩

theorem Work.noteIndicator_keeps {old new : Work} (h : Keeps old new) : Keeps old (Work.noteIndicator old new) := by
  unfold Work.noteIndicator
  split
  · exact h
  · exact h.trans (Work.dirty_keeps _ _)

theorem Work.setLock_keeps (w : Work) (x : StationState) (l : Lock) : Keeps w (w.setLock x l) :=
  Work.noteIndicator_keeps (⟨rfl, rfl, rfl, rfl, rfl, rfl, rfl, rfl⟩)

theorem Work.setAdjusted_keeps (w : Work) (b : Bool) : Keeps w (w.setAdjusted b) :=
  Work.noteIndicator_keeps (⟨rfl, rfl, rfl, rfl, rfl, rfl, rfl, rfl⟩)

theorem Work.setInsertMode_keeps (w : Work) (b : Bool) : Keeps w (w.setInsertMode b) :=
  Work.noteIndicator_keeps (⟨rfl, rfl, rfl, rfl, rfl, rfl, rfl, rfl⟩)

theorem Work.setEditing_keeps (w : Work) (b : Bool) : Keeps w (w.setEditing b) := ⟨rfl, rfl, rfl, rfl, rfl, rfl, rfl, rfl⟩

theorem Work.alarm_keeps (w : Work) : Keeps w w.alarm := ⟨rfl, rfl, rfl, rfl, rfl, rfl, rfl, rfl⟩

theorem Work.markCursor_keeps (w : Work) : Keeps w w.markCursor := ⟨rfl, rfl, rfl, rfl, rfl, rfl, rfl, rfl⟩

theorem Work.moveCursor_keeps (w : Work) (q : Pos) : Keeps w (w.moveCursor q) := by
  unfold Work.moveCursor
  split <;> exact ⟨rfl, rfl, rfl, rfl, rfl, rfl, rfl, rfl⟩

theorem Work.operatorError_keeps (w : Work) (code : ErrorCode) : Keeps w (w.operatorError code) :=
  (Work.setLock_keeps w _ _).trans (Work.alarm_keeps _)

theorem Work.dirtyInst_keeps (w : Work) (r : InstRef) : Keeps w (w.dirtyInst r) := by
  unfold Work.dirtyInst
  split
  · exact Work.dirty_keeps _ _
  · split
    · exact Work.dirty_keeps _ _
    · exact ⟨rfl, rfl, rfl, rfl, rfl, rfl, rfl, rfl⟩

theorem Context.modInst_entry (c : Context) (r : InstRef) (f : FieldInst → FieldInst) :
    (c.modInst r f).entry = c.entry := by
  unfold Context.modInst
  repeat' split
  all_goals rfl

theorem Work.putInst_keeps (w : Work) (r : InstRef) (x : FieldInst) : Keeps w (w.putInst r x) := by
  unfold Work.putInst
  split
  · have h : ∀ f, Keeps w { w with c := w.c.modInst r f } := fun f =>
      ⟨rfl, rfl, Context.modInst_entry _ _ _, rfl, rfl, rfl, rfl, rfl⟩
    simp only []
    split
    · exact h _
    · exact (h _).trans (Work.dirtyInst_keeps _ _)
  · exact ⟨rfl, rfl, rfl, rfl, rfl, rfl, rfl, rfl⟩

theorem Work.setFirst_keeps (w : Work) (f : Nat) : Keeps w (w.setFirst f) := by
  unfold Work.setFirst
  split <;> exact ⟨rfl, rfl, rfl, rfl, rfl, rfl, rfl, rfl⟩

theorem Work.takeRow_keeps (w : Work) : Keeps w w.takeRow := ⟨rfl, rfl, rfl, rfl, rfl, rfl, rfl, rfl⟩

theorem Work.returnRow_keeps (w : Work) : Keeps w w.returnRow := ⟨rfl, rfl, rfl, rfl, rfl, rfl, rfl, rfl⟩

theorem Work.insertRowAt_keeps (w : Work) (p : Nat) (x : RowRec) : Keeps w (w.insertRowAt p x) := ⟨rfl, rfl, rfl, rfl, rfl, rfl, rfl, rfl⟩

theorem Work.removeRowAt_keeps (w : Work) (p : Nat) : Keeps w (w.removeRowAt p) := ⟨rfl, rfl, rfl, rfl, rfl, rfl, rfl, rfl⟩

/-! ### Tally.lean -/

theorem Work.compute_keeps (w : Work) (r : InstRef) : Keeps w (w.compute r) := by
  unfold Work.compute
  split
  · exact Work.putInst_keeps _ _ _
  · exact ⟨rfl, rfl, rfl, rfl, rfl, rfl, rfl, rfl⟩

theorem Work.computeProduct_keeps (p : Work × List Nat) (r : Nat × Nat) : Keeps p.1 (Work.computeProduct p r).1 :=
  Work.compute_keeps _ _

theorem Work.computeProductsOf_keeps (w : Work) (l : List (Nat × Nat)) : Keeps w (w.computeProductsOf l).1 := by
  unfold Work.computeProductsOf
  exact Keeps.foldl_pair (fun p r => Work.computeProduct_keeps p r) _ (w, _)

theorem Work.computeSumsOf_keeps (w : Work) (ids : List Nat) : Keeps w (w.computeSumsOf ids) :=
  Keeps.foldl (fun w i => Work.compute_keeps w (.fixed i)) _ _

theorem Work.computeAllSums_keeps (w : Work) : Keeps w w.computeAllSums :=
  Keeps.foldl (fun w i => Work.compute_keeps w (.fixed i)) _ _

theorem Work.computeRow_keeps (w : Work) (p : Nat) : Keeps w (w.computeRow p) :=
  Keeps.foldl (fun w j => Work.compute_keeps w (.row p j)) _ _

theorem Work.tally_keeps (w : Work) (l : List (Nat × Nat)) : Keeps w (w.tally l) :=
  (Work.computeProductsOf_keeps w l).trans (Work.computeSumsOf_keeps _ _)

theorem Work.tallyAll_keeps (w : Work) : Keeps w w.tallyAll :=
  (Keeps.foldl (fun w k => Work.computeRow_keeps w (k + 1)) _ _).trans (Work.computeAllSums_keeps _)

/-! ### Editor.lean -/

/-- The work an outcome of the exit check goes on with. -/
def ExitOutcome.work (o : ExitOutcome) : Work :=
  match o with
  | .passed w _ => w
  | .failed w => w

theorem Work.exitField_keeps (w : Work) (negate : Bool) : Keeps w (w.exitField negate).work := by
  unfold Work.exitField
  split
  · exact ⟨rfl, rfl, rfl, rfl, rfl, rfl, rfl, rfl⟩
  · split
    · exact ⟨rfl, rfl, rfl, rfl, rfl, rfl, rfl, rfl⟩
    · split
      · exact (Work.moveCursor_keeps w _).trans (Work.operatorError_keeps _ _)
      · rename_i u _ r _
        simp only [ExitOutcome.work]
        split
        · exact ((Work.putInst_keeps w _ _).trans (Work.setEditing_keeps _ _)).trans (Work.setAdjusted_keeps _ _)
        · exact (Work.putInst_keeps w _ _).trans (Work.setEditing_keeps _ _)

theorem Work.exitField_passed_keeps {w w' : Work} {negate : Bool} {l : List (Nat × Nat)}
    (h : w.exitField negate = .passed w' l) : Keeps w w' := by
  have := Work.exitField_keeps w negate
  rwa [h] at this

theorem Work.exitField_failed_keeps {w w' : Work} {negate : Bool} (h : w.exitField negate = .failed w') :
    Keeps w w' := by
  have := Work.exitField_keeps w negate
  rwa [h] at this

theorem Work.exitThenMove_keeps (w : Work) (b n : Bool) (l : List (Nat × Nat)) (f : Nat) (q : Pos) :
    Keeps w (w.exitThenMove b n l f q) := by
  have key : Keeps w (if b then w.exitField n else .passed w []).work := by
    split
    · exact Work.exitField_keeps w n
    · exact ⟨rfl, rfl, rfl, rfl, rfl, rfl, rfl, rfl⟩
  unfold Work.exitThenMove
  split
  · rename_i h
    rw [h] at key
    exact key.trans (Work.tally_keeps _ _)
  · rename_i h
    rw [h] at key
    exact ((key.trans (Work.tally_keeps _ _)).trans (Work.setFirst_keeps _ _)).trans (Work.moveCursor_keeps _ _)

theorem Work.moveAsTab_keeps (w : Work) (b : Bool) (l : List (Nat × Nat)) : Keeps w (w.moveAsTab b l) :=
  Work.exitThenMove_keeps _ _ _ _ _ _

theorem Work.editText_keeps (w : Work) (u : Under) (t : Text) : Keeps w (w.editText u t) :=
  (Work.putInst_keeps w _ _).trans (Work.setEditing_keeps _ _)

theorem Work.advance_keeps (w : Work) (d : FieldDef) : Keeps w (w.advance d) := by
  unfold Work.advance
  split
  · exact Work.moveCursor_keeps _ _
  · split
    · exact Work.moveAsTab_keeps _ _ _
    · exact Work.exitThenMove_keeps _ _ _ _ _ _

theorem Work.dataKey_keeps (w : Work) (ch : Byte) : Keeps w (w.dataKey ch) := by
  unfold Work.dataKey
  repeat' split
  all_goals first
    | exact Work.operatorError_keeps _ _
    | exact (Work.editText_keeps _ _ _).trans (Work.advance_keeps _ _)

theorem Work.deleteKey_keeps (w : Work) : Keeps w w.deleteKey := by
  unfold Work.deleteKey
  split
  · exact Work.operatorError_keeps _ _
  · exact Work.editText_keeps _ _ _

theorem Work.eraseEofKey_keeps (w : Work) : Keeps w w.eraseEofKey := by
  unfold Work.eraseEofKey
  split
  · exact Work.operatorError_keeps _ _
  · exact Work.editText_keeps _ _ _

theorem Work.eraseInst_keeps (p : Work × List (Nat × Nat)) (r : InstRef) : Keeps p.1 (Work.eraseInst p r).1 := by
  unfold Work.eraseInst
  split
  · split
    · exact ⟨rfl, rfl, rfl, rfl, rfl, rfl, rfl, rfl⟩
    · exact Work.putInst_keeps _ _ _
  · exact ⟨rfl, rfl, rfl, rfl, rfl, rfl, rfl, rfl⟩

theorem Work.eraseInputKey_keeps (w : Work) : Keeps w w.eraseInputKey := by
  have h : Keeps w ((allRefs w.v w.c).foldl Work.eraseInst (w, [])).1 :=
    Keeps.foldl_pair (fun p r => Work.eraseInst_keeps p r) _ (w, [])
  exact ((h.trans (Work.setEditing_keeps _ false)).trans (Work.moveCursor_keeps _ _)).trans (Work.tally_keeps _ _)

theorem Work.fieldExitKey_keeps (w : Work) : Keeps w w.fieldExitKey := by
  unfold Work.fieldExitKey
  split
  · exact Work.operatorError_keeps _ _
  · exact (Work.editText_keeps _ _ _).trans (Work.moveAsTab_keeps _ _ _)

theorem Work.fieldMinusKey_keeps (w : Work) : Keeps w w.fieldMinusKey := by
  unfold Work.fieldMinusKey
  split
  · exact Work.operatorError_keeps _ _
  · split
    · exact (Work.editText_keeps _ _ _).trans (Work.moveAsTab_keeps _ _ _)
    · exact Work.operatorError_keeps _ _

theorem Work.dupKey_keeps (w : Work) : Keeps w w.dupKey := by
  unfold Work.dupKey
  split
  · exact Work.alarm_keeps _
  · split
    · exact Work.alarm_keeps _
    · exact ((Work.putInst_keeps _ _ _).trans (Work.setEditing_keeps _ _)).trans (Work.moveAsTab_keeps _ _ _)

theorem Work.rollTo_keeps (w : Work) (f : Nat) : Keeps w (w.rollTo f) := by
  unfold Work.rollTo
  split
  · exact ⟨rfl, rfl, rfl, rfl, rfl, rfl, rfl, rfl⟩
  · exact Work.exitThenMove_keeps _ _ _ _ _ _

theorem Work.insertOperatorRow_keeps (w : Work) (l : List (Nat × Nat)) : Keeps w (w.insertOperatorRow l) := by
  unfold Work.insertOperatorRow
  extract_lets p w1 w2 w3
  have h1 : Keeps w w1 := ⟨rfl, rfl, rfl, rfl, rfl, rfl, rfl, rfl⟩
  have h2 : Keeps w1 w2 := Work.moveCursor_keeps _ _
  have h3 : Keeps w2 w3 := (Work.computeRow_keeps w2 p).trans (Work.computeProductsOf_keeps _ _)
  exact (((h1.trans h2).trans h3).trans (Work.computeAllSums_keeps _)).trans
    ((Work.dirty_keeps _ _).trans (Work.markCursor_keeps _))

theorem Work.rowInsertKey_keeps (w : Work) : Keeps w w.rowInsertKey := by
  unfold Work.rowInsertKey
  split
  · exact Work.operatorError_keeps _ _
  split
  · exact Work.operatorError_keeps _ _
  split
  · exact Work.operatorError_keeps _ _
  split
  · rename_i h
    exact Work.exitField_failed_keeps h
  · rename_i h
    exact (Work.exitField_passed_keeps h).trans (Work.insertOperatorRow_keeps _ _)

theorem Work.deleteOperatorRow_keeps (w : Work) (p : Nat) (x : RowRec) : Keeps w (w.deleteOperatorRow p x) := by
  unfold Work.deleteOperatorRow
  extract_lets inRow w1 w2 w3 w4 w5 w6
  have h1 : Keeps w w3 := ⟨rfl, rfl, rfl, rfl, rfl, rfl, rfl, rfl⟩
  have h2 : Keeps w3 w4 := by
    simp only [w4]
    split
    · exact Work.setEditing_keeps w3 false
    · exact Keeps.refl w3
  have h3 : Keeps w4 w6 := ⟨rfl, rfl, rfl, rfl, rfl, rfl, rfl, rfl⟩
  exact (((h1.trans h2).trans h3).trans (Work.computeAllSums_keeps w6)).trans (Work.dirty_keeps _ _)

theorem Work.rowDeleteKey_keeps (w : Work) : Keeps w w.rowDeleteKey := by
  unfold Work.rowDeleteKey
  split
  · exact Work.operatorError_keeps _ _
  split
  · exact Work.operatorError_keeps _ _
  split
  · exact Work.operatorError_keeps _ _
  split
  · exact Work.operatorError_keeps _ _
  · exact Work.deleteOperatorRow_keeps _ _ _

theorem Work.showRow_keeps (w : Work) (r : InstRef) : Keeps w (w.showRow r) := by
  unfold Work.showRow
  repeat' split
  all_goals first
    | exact ⟨rfl, rfl, rfl, rfl, rfl, rfl, rfl, rfl⟩
    | exact Work.setFirst_keeps _ _

theorem Work.latch_keeps (w : Work) (key : Byte) : Keeps w (w.latch key) :=
  (Work.setLock_keeps w .attention .system).trans ⟨rfl, rfl, rfl, rfl, rfl, rfl, rfl, rfl⟩

theorem Work.reportKey_keeps (w : Work) (key : Byte) : Keeps w (w.reportKey key) := by
  unfold Work.reportKey
  split
  · rename_i h
    exact Work.exitField_failed_keeps h
  · rename_i w1 l h
    extract_lets w2
    have h' : Keeps w w2 := (Work.exitField_passed_keeps h).trans (Work.tally_keeps w1 l)
    split
    · extract_lets w3
      have h3 : Keeps w2 w3 := Work.showRow_keeps _ _
      exact ((h'.trans h3).trans (Work.moveCursor_keeps _ _)).trans (Work.operatorError_keeps _ _)
    · exact h'.trans (Work.latch_keeps _ _)

theorem Work.applyDecoded_keeps (w : Work) (k : Key) : Keeps w (w.applyDecoded k) := by
  cases k with
  | data c => exact Work.dataKey_keeps _ _
  | attention c =>
    show Keeps w (if c = clearKey then w.latch c else w.reportKey c)
    split
    · exact Work.latch_keeps _ _
    · exact Work.reportKey_keeps _ _
  | tab => exact Work.moveAsTab_keeps _ _ _
  | backtab => exact Work.exitThenMove_keeps _ _ _ _ _ _
  | home => exact Work.exitThenMove_keeps _ _ _ _ _ _
  | newline => exact Work.exitThenMove_keeps _ _ _ _ _ _
  | up => exact Work.exitThenMove_keeps _ _ _ _ _ _
  | down => exact Work.exitThenMove_keeps _ _ _ _ _ _
  | left => exact Work.exitThenMove_keeps _ _ _ _ _ _
  | right => exact Work.exitThenMove_keeps _ _ _ _ _ _
  | rollUp => exact Work.rollTo_keeps _ _
  | rollDown => exact Work.rollTo_keeps _ _
  | rowInsert => exact Work.rowInsertKey_keeps _
  | rowDelete => exact Work.rowDeleteKey_keeps _
  | delete => exact Work.deleteKey_keeps _
  | eraseEof => exact Work.eraseEofKey_keeps _
  | eraseInput => exact Work.eraseInputKey_keeps _
  | fieldExit => exact Work.fieldExitKey_keeps _
  | fieldMinus => exact Work.fieldMinusKey_keeps _
  | dup => exact Work.dupKey_keeps _
  | insert => exact Work.setInsertMode_keeps _ _
  | reset => exact Work.setInsertMode_keeps _ _

/-- A keystroke applied. -/
theorem Work.applyKey_keeps (w : Work) (k : Byte) : Keeps w (w.applyKey k) := by
  unfold Work.applyKey
  split
  · exact ⟨rfl, rfl, rfl, rfl, rfl, rfl, rfl, rfl⟩
  · exact (Work.setAdjusted_keeps _ _).trans (Work.applyDecoded_keeps _ _)

theorem Work.drain_keeps (l : List Byte) (w : Work) : Keeps w (w.drain l) := by
  induction l generalizing w with
  | nil => exact ⟨rfl, rfl, rfl, rfl, rfl, rfl, rfl, rfl⟩
  | cons k rest ih =>
    have h : Keeps w ((w.setTypeAhead rest).applyKey k) :=
      (show Keeps w (w.setTypeAhead rest) from ⟨rfl, rfl, rfl, rfl, rfl, rfl, rfl, rfl⟩).trans (Work.applyKey_keeps _ _)
    unfold Work.drain
    simp only []
    split
    · exact h.trans (ih _)
    · exact h.trans ⟨rfl, rfl, rfl, rfl, rfl, rfl, rfl, rfl⟩
    · exact h
    · exact h

theorem Work.dealWithTypeAhead_keeps (w : Work) : Keeps w w.dealWithTypeAhead := by
  unfold Work.dealWithTypeAhead
  split
  · have h : Keeps w { w with st := { w.st with typeAhead := [], overrun := false } } :=
      ⟨rfl, rfl, rfl, rfl, rfl, rfl, rfl, rfl⟩
    exact h.trans (Work.operatorError_keeps _ _)
  · exact Work.drain_keeps _ _

theorem Work.openKeyboard_keeps (w : Work) : Keeps w w.openKeyboard := by
  unfold Work.openKeyboard
  split
  · exact Work.setLock_keeps _ _ _
  · exact (Work.setLock_keeps w .entry .none).trans (Work.dealWithTypeAhead_keeps _)

theorem Work.resetError_keeps (w : Work) : Keeps w w.resetError :=
  (Work.setAdjusted_keeps w _).trans (Work.openKeyboard_keeps _)

/-! ### FILL (Contexts.lean) -/

theorem Work.setInst_keeps (w : Work) (r : InstRef) (x : FieldInst) (t : Text × Option Int) :
    Keeps w (w.setInst r x t) := by
  unfold Work.setInst
  extract_lets cursorIn w1 w2
  have h1 : Keeps w w1 := Work.putInst_keeps w _ _
  have h2 : Keeps w1 w2 := by
    simp only [w2]
    split
    · exact Work.setEditing_keeps _ _
    · exact Keeps.refl _
  split
  · exact h1.trans h2
  · exact (h1.trans h2).trans (Work.tally_keeps _ _)

theorem Work.abandonEdit_keeps (w : Work) (r : InstRef) : Keeps w (w.abandonEdit r) := by
  unfold Work.abandonEdit
  extract_lets w1
  have h1 : Keeps w w1 := Work.setEditing_keeps w false
  split
  · split
    · exact h1.trans (Work.putInst_keeps _ _ _)
    · exact h1
  · exact h1

theorem Work.leaveInst_keeps (w : Work) (b : Option InstRef) : Keeps w (w.leaveInst b) := by
  unfold Work.leaveInst
  split
  · exact Keeps.refl w
  · split
    · exact Work.abandonEdit_keeps _ _
    · exact Keeps.refl w

theorem Work.dirtyBandAt_keeps (w : Work) (p : Nat) : Keeps w (w.dirtyBandAt p) := by
  unfold Work.dirtyBandAt
  split <;> exact ⟨rfl, rfl, rfl, rfl, rfl, rfl, rfl, rfl⟩

theorem Work.fillInsert_keeps {w w' : Work} {p : Nat} {x : RowEntry} (h : w.fillInsert p x = .ok w') : Keeps w w' := by
  unfold Work.fillInsert at h
  split at h
  · cases h
  split at h
  · cases h
  split at h
  · cases h
  split at h
  · cases h
  rename_i insts _
  split at h
  · cases h
  extract_lets before w1 w2 at h
  have h1 : Keeps w w1 := ⟨rfl, rfl, rfl, rfl, rfl, rfl, rfl, rfl⟩
  have h2 : Keeps w1 w2 := ((Work.dirtyBandAt_keeps w1 p).trans (Work.computeRow_keeps _ _)).trans
    (Work.computeAllSums_keeps _)
  cases h
  exact (h1.trans h2).trans (Work.leaveInst_keeps _ _)

theorem Work.fillDelete_keeps {w w' : Work} {p : Nat} (h : w.fillDelete p = .ok w') : Keeps w w' := by
  unfold Work.fillDelete at h
  split at h
  · cases h
  extract_lets before shown w1 w2 w3 w4 w5 at h
  have h3 : Keeps w w3 := ⟨rfl, rfl, rfl, rfl, rfl, rfl, rfl, rfl⟩
  have h4 : Keeps w3 w4 := by
    simp only [w4]
    split
    · exact Work.dirty_keeps _ _
    · exact Keeps.refl _
  have h5 : Keeps w w5 := (h3.trans h4).trans (Work.computeAllSums_keeps _)
  clear_value before
  clear_value w5
  split at h
  · cases h
    exact h5
  · split at h
    · cases h
      exact h5.trans (Work.setEditing_keeps _ _)
    · cases h
      exact h5.trans (Work.leaveInst_keeps _ _)

theorem Work.fillEntry_keeps {w w' : Work} {e : FillEntry} (h : w.fillEntry e = .ok w') : Keeps w w' := by
  unfold Work.fillEntry at h
  split at h
  · unfold Work.fillSet at h
    repeat' split at h
    all_goals cases h
    exact Work.setInst_keeps _ _ _ _
  · exact Work.fillInsert_keeps h
  · exact Work.fillInsert_keeps h
  · exact Work.fillDelete_keeps h
  · unfold Work.fillTag at h
    repeat' split at h
    all_goals cases h
    exact ⟨rfl, rfl, rfl, rfl, rfl, rfl, rfl, rfl⟩
  · unfold Work.fillCursor at h
    split at h
    · cases h
    cases h
    exact ((Work.showRow_keeps _ _).trans (Work.moveCursor_keeps _ _)).trans (Work.leaveInst_keeps _ _)

theorem Work.fillEntries_keeps (l : List FillEntry) (w : Work) (k : Nat) : Keeps w (w.fillEntries k l).1 := by
  induction l generalizing w k with
  | nil => exact ⟨rfl, rfl, rfl, rfl, rfl, rfl, rfl, rfl⟩
  | cons e rest ih =>
    unfold Work.fillEntries
    split
    · exact ⟨rfl, rfl, rfl, rfl, rfl, rfl, rfl, rfl⟩
    · rename_i h
      exact (Work.fillEntry_keeps h).trans (ih _ _)

theorem Work.unlock_keeps (w : Work) : Keeps w w.unlock := by
  unfold Work.unlock
  split
  · exact Work.openKeyboard_keeps _
  · exact Work.openKeyboard_keeps _
  all_goals exact ⟨rfl, rfl, rfl, rfl, rfl, rfl, rfl, rfl⟩

theorem Work.fillOptions_keeps (w : Work) (u m : Bool) : Keeps w (w.fillOptions u m) := by
  unfold Work.fillOptions
  extract_lets w1
  have h : Keeps w w1 := by
    simp only [w1]
    split <;> exact ⟨rfl, rfl, rfl, rfl, rfl, rfl, rfl, rfl⟩
  split
  · exact h.trans (Work.unlock_keeps _)
  · exact h

/-- A whole FILL. -/
theorem Work.fill_keeps (w : Work) (l : List FillEntry) (u m : Bool) : Keeps w (w.fill l u m).1 := by
  have h := Work.fillEntries_keeps l w 1
  unfold Work.fill
  split
  · rename_i e
    rw [e] at h
    exact h
  · rename_i e
    rw [e] at h
    exact h.trans (Work.fillOptions_keeps _ _ _)

/-! ### An abandoned edit (R123) and a drained queue (R37) -/

@[simp] theorem abandoned_editing (v : TemplateVersion) (c : Context) (r : InstRef) :
    (abandoned v c r).editing = false := rfl

@[simp] theorem abandoned_first (v : TemplateVersion) (c : Context) (r : InstRef) :
    (abandoned v c r).first = c.first := by
  cases r with
  | fixed j => rfl
  | row p j => simp only [abandoned, Context.modInst]; split <;> rfl

@[simp] theorem abandoned_cursor (v : TemplateVersion) (c : Context) (r : InstRef) :
    (abandoned v c r).cursor = c.cursor := by
  cases r with
  | fixed j => rfl
  | row p j => simp only [abandoned, Context.modInst]; split <;> rfl

@[simp] theorem State.drained_nil (i : StationId) (s : State) : s.drained i [] = s := rfl

/-- A keystroke that leaves the lock NONE hands the queue on. -/
theorem State.drained_none {i : StationId} {s : State} {k : Byte}
    (h : ((State.deliverKey i s k).station i).lock = .none) (rest : List Byte) :
    s.drained i (k :: rest) = (State.deliverKey i s k).drained i rest := by
  simp only [State.drained, h]

/-- A keystroke that sets an operator error ends the drain with an empty queue. -/
theorem State.drained_operatorError {i : StationId} {s : State} {k : Byte} {code : ErrorCode}
    (h : ((State.deliverKey i s k).station i).lock = .operatorError code) (rest : List Byte) :
    s.drained i (k :: rest) = State.deliverKey i s k := by
  simp only [State.drained, h]

end Sys2Proof.Machine
end

