-- ==== Sys2Proof/Laws/Frames.lean ====
section
/-! SUPPORT. What an act on one station leaves alone, said once for each operation of Machine/Ops.lean and
Machine/Contexts.lean, and the arrival of a frame at the receiver. -/

namespace Sys2Proof.Machine

/-- What every act on station `i` leaves alone: the inputs, the receiver, the transmitter, the enable set, the staging,
the version numbers, the loop, the other stations and their attention slots, and the station's own loop record. -/
structure OnlyStation (i : StationId) (s t : State) : Prop where
  pending : t.pending = s.pending
  resetInput : t.resetInput = s.resetInput
  holdInput : t.holdInput = s.holdInput
  rx : t.rx = s.rx
  tx : t.tx = s.tx
  cuts : t.cuts = s.cuts
  enable : t.enable = s.enable
  staging : t.staging = s.staging
  nextVersion : t.nextVersion = s.nextVersion
  loop : t.loop = s.loop
  stations : ∀ j, j ≠ i → t.station j = s.station j
  attention : ∀ j : StationId, j ≠ i → t.attention[j] = s.attention[j]
  link : (t.station i).link = (s.station i).link

namespace OnlyStation

variable {i : StationId} {s t u : State}

theorem refl (i : StationId) (s : State) : OnlyStation i s s :=
  ⟨rfl, rfl, rfl, rfl, rfl, rfl, rfl, rfl, rfl, rfl, fun _ _ => rfl, fun _ _ => rfl, rfl⟩

theorem trans (h : OnlyStation i s t) (k : OnlyStation i t u) : OnlyStation i s u :=
  ⟨k.1.trans h.1, k.2.trans h.2, k.3.trans h.3, k.4.trans h.4, k.5.trans h.5, k.6.trans h.6, k.7.trans h.7,
    k.8.trans h.8, k.9.trans h.9, k.10.trans h.10, fun j hj => (k.11 j hj).trans (h.11 j hj),
    fun j hj => (k.12 j hj).trans (h.12 j hj), k.13.trans h.13⟩

/-- A change of fields that the frame does not name. -/
theorem of_eq (h1 : t.pending = s.pending) (h2 : t.resetInput = s.resetInput) (h3 : t.holdInput = s.holdInput)
    (h4 : t.rx = s.rx) (h5 : t.tx = s.tx) (h6 : t.cuts = s.cuts) (h7 : t.enable = s.enable)
    (h8 : t.staging = s.staging) (h9 : t.nextVersion = s.nextVersion) (h10 : t.loop = s.loop)
    (h11 : t.stations = s.stations) (h12 : t.attention = s.attention) : OnlyStation i s t :=
  ⟨h1, h2, h3, h4, h5, h6, h7, h8, h9, h10, fun j _ => by simp [State.station, h11],
    fun j _ => by simp [h12], by simp [State.station, h11]⟩

end OnlyStation

variable {i : StationId} (s : State)

theorem State.setStation_only (st : Station) (h : st.link = (s.station i).link) :
    OnlyStation i s (s.setStation i st) :=
  ⟨rfl, rfl, rfl, rfl, rfl, rfl, rfl, rfl, rfl, rfl, fun _ hj => State.station_setStation_ne s st hj, fun _ _ => rfl,
    by simpa using h⟩

theorem State.modStation_only (f : Station → Station) (h : ∀ st, (f st).link = st.link) :
    OnlyStation i s (s.modStation i f) := State.setStation_only s _ (h _)

theorem State.modPaint_only (f : Paint → Paint) : OnlyStation i s (s.modPaint i f) :=
  State.modStation_only s _ (by intro _; rfl)

theorem State.release_only (g : GenId) : OnlyStation i s (s.release g) :=
  .of_eq rfl rfl rfl rfl rfl rfl rfl rfl rfl rfl rfl rfl

theorem State.place_only (g : GenId) (n : Nat) (r : Inbound) : OnlyStation i s (s.place g n r) :=
  .of_eq rfl rfl rfl rfl rfl rfl rfl rfl rfl rfl rfl rfl

theorem State.refuseRecord_only (g : GenId) (k : Nat) (e : Reason) (a b : Option Nat) :
    OnlyStation i s (s.refuseRecord i g k e a b) := State.place_only s _ _ _

theorem State.doneRecord_only (g : GenId) (k : Nat) : OnlyStation i s (s.doneRecord i g k) :=
  State.place_only s _ _ _

theorem State.placeAttention_only (k : Byte) : OnlyStation i s (s.placeAttention i k) :=
  ⟨rfl, rfl, rfl, rfl, rfl, rfl, rfl, rfl, rfl, rfl, fun _ _ => rfl,
    fun j hj => Vector.getElem_set_ne i.isLt j.isLt (fun e => hj (Fin.ext e.symm)), rfl⟩

/-- Placing a notice changes the event slot and the waiting records alone. -/
theorem State.placeNotice_only : OnlyStation i s s.placeNotice := by
  unfold State.placeNotice
  split <;> exact .of_eq rfl rfl rfl rfl rfl rfl rfl rfl rfl rfl rfl rfl

theorem State.raise_only (e : Event) : OnlyStation i s (s.raise e) := by
  unfold State.raise State.updateEvents
  extract_lets t
  have h : OnlyStation i s t := .of_eq rfl rfl rfl rfl rfl rfl rfl rfl rfl rfl rfl rfl
  split
  · exact h.trans (State.placeNotice_only _)
  · exact h

theorem State.setEntry_only (e : EntryId) (o : Option TemplateVersion) : OnlyStation i s (s.setEntry e o) :=
  .of_eq rfl rfl rfl rfl rfl rfl rfl rfl rfl rfl rfl rfl

theorem State.freeIfUnused_only (e : EntryId) : OnlyStation i s (s.freeIfUnused e) := by
  unfold State.freeIfUnused
  split
  · split
    · exact (State.setEntry_only s _ _).trans (State.raise_only _ _)
    · exact .refl i s
  · exact .refl i s

theorem State.lowerUse_only (e : EntryId) : OnlyStation i s (s.lowerUse e) := by
  unfold State.lowerUse
  split
  · exact (State.setEntry_only s _ _).trans (State.freeIfUnused_only _ _)
  · exact .refl i s

theorem State.raiseUse_only (e : EntryId) : OnlyStation i s (s.raiseUse e) := by
  unfold State.raiseUse
  split
  · exact State.setEntry_only s _ _
  · exact .refl i s

theorem Station.withIndicator_link (st : Station) (f : Station → Station) (h : (f st).link = st.link) :
    (st.withIndicator f).link = st.link := by
  unfold Station.withIndicator
  extract_lets st'
  split <;> exact h

theorem State.setLock_only (x : StationState) (l : Lock) : OnlyStation i s (s.setLock i x l) :=
  State.modStation_only s _ (fun st => Station.withIndicator_link st _ rfl)

theorem State.setFull_only (m : Marker → Marker) : OnlyStation i s (s.setFull i m) :=
  State.modStation_only s _ (by intro _; rfl)

theorem State.placeLatched_only (k : Option Byte) : OnlyStation i s (s.placeLatched i k) := by
  unfold State.placeLatched
  split
  · exact State.placeAttention_only s _
  · exact .refl i s

/-- The end of an act. -/
theorem State.closeWork_only (w : Work) (h : w.st.link = (s.station i).link) : OnlyStation i s (s.closeWork i w) := by
  unfold State.closeWork
  extract_lets s1 s2
  have h1 : OnlyStation i s s1 :=
    (State.setStation_only s { w.st with ctx := some w.c } h).trans
      (.of_eq rfl rfl rfl rfl rfl rfl rfl rfl rfl rfl rfl rfl)
  have h2 : OnlyStation i s1 s2 := by
    simp only [s2]
    split
    · exact State.raise_only s1 _
    · exact .refl i s1
  exact (h1.trans h2).trans (State.placeLatched_only s2 _)

/-- An act on a station. -/
theorem State.act_only (f : Work → Work) (h : ∀ w, Keeps w (f w)) : OnlyStation i s (s.act i f) := by
  unfold State.act
  split
  · exact State.closeWork_only s _ (h _).link
  · exact .refl i s

/-! ### Contexts.lean -/

theorem State.dropContext_only : OnlyStation i s (s.dropContext i) := by
  unfold State.dropContext
  split
  · rename_i c _
    extract_lets st p s1 s2
    have h1 : OnlyStation i s s1 := State.setStation_only s _ rfl
    have h2 : OnlyStation i s1 s2 := .of_eq rfl rfl rfl rfl rfl rfl rfl rfl rfl rfl rfl rfl
    exact (h1.trans h2).trans (State.lowerUse_only s2 _)
  · exact .refl i s

theorem State.supersede_only : OnlyStation i s (s.supersede i) := by
  unfold State.supersede
  split
  · exact (State.modStation_only s _ (by intro _; rfl)).trans (State.release_only _ _)
  · exact State.modStation_only s _ (by intro _; rfl)

theorem State.latchBlank_only (k : Byte) : OnlyStation i s (s.latchBlank i k) :=
  (State.setLock_only s _ _).trans (State.placeAttention_only _ _)

theorem State.openBlank_only : OnlyStation i s (s.openBlank i) := by
  unfold State.openBlank
  extract_lets s1 st
  have h1 : OnlyStation i s s1 := State.setLock_only s _ _
  split
  · exact h1.trans (State.modStation_only _ _ (by intro _; rfl))
  · split
    · exact (h1.trans (State.modStation_only _ _ (by intro _; rfl))).trans (State.latchBlank_only _ _)
    · exact h1.trans (State.modStation_only _ _ (by intro _; rfl))

theorem State.endReleasing_only : OnlyStation i s (s.endReleasing i) := by
  unfold State.endReleasing
  extract_lets g s1 s2
  have h1 : OnlyStation i s s1 := State.setLock_only s _ _
  have h2 : OnlyStation i s1 s2 := State.modStation_only _ _ (by intro _; rfl)
  clear_value g
  split
  · exact (h1.trans h2).trans (State.place_only _ _ _ _)
  · exact h1.trans h2

theorem State.endComposing_only : OnlyStation i s (s.endComposing i) := by
  unfold State.endComposing
  extract_lets st s1 s2
  have h1 : OnlyStation i s s1 := by
    simp only [s1]
    split
    · exact State.act_only s _ Work.openKeyboard_keeps
    · exact State.setLock_only s _ _
  have h2 : OnlyStation i s1 s2 := State.modStation_only _ _ (by intro _; rfl)
  split
  · exact (h1.trans h2).trans (State.place_only _ _ _ _)
  · exact h1.trans h2

theorem State.takeRows_only (k : Nat) : OnlyStation i s (s.takeRows k) := by
  unfold State.takeRows
  extract_lets falls s1
  have h1 : OnlyStation i s s1 := .of_eq rfl rfl rfl rfl rfl rfl rfl rfl rfl rfl rfl rfl
  split
  · exact h1.trans (State.raise_only _ _)
  · exact h1

theorem State.composeFails_only (g : GenId) (e : EntryId) (n : Nat) (f : ComposeFailure) :
    OnlyStation i s (s.composeFails i g e n f) := by
  unfold State.composeFails
  extract_lets s1 s2 s3 s4
  have h1 : OnlyStation i s s1 := .of_eq rfl rfl rfl rfl rfl rfl rfl rfl rfl rfl rfl rfl
  have h2 : OnlyStation i s1 s2 := State.lowerUse_only _ _
  have h3 : OnlyStation i s2 s3 := State.modStation_only _ _ (by intro _; rfl)
  have h4 : OnlyStation i s3 s4 := State.setFull_only _ _
  exact (((h1.trans h2).trans h3).trans h4).trans (State.refuseRecord_only _ _ _ _ _ _)

theorem State.composeSucceeds_only (g : GenId) (c : ComposeRec) (x : Context) :
    OnlyStation i s (s.composeSucceeds i g c x) := by
  unfold State.composeSucceeds
  extract_lets w built s1 s2
  have h1 : OnlyStation i s s1 := State.modStation_only _ _ (by intro _; rfl)
  have h2 : OnlyStation i s1 s2 := State.setFull_only _ _
  split
  · exact h1.trans h2
  · exact (h1.trans h2).trans (State.release_only _ _)

theorem State.takeCompose_only (g : GenId) (c : ComposeRec) : OnlyStation i s (s.takeCompose i g c) := by
  unfold State.takeCompose
  split
  · exact State.refuseRecord_only s _ _ _ _ _
  · rename_i e _
    extract_lets s1 v s2
    have h1 : OnlyStation i s s1 :=
      ((State.dropContext_only s).trans (State.supersede_only _)).trans (State.raiseUse_only _ _)
    have h2 : OnlyStation i s s2 := h1.trans (State.takeRows_only _ _)
    split
    · exact h1.trans (State.composeFails_only _ _ _ _ _)
    split
    · exact h1.trans (State.composeFails_only _ _ _ _ _)
    split
    · exact h2.trans (State.composeFails_only _ _ _ _ _)
    · exact h2.trans (State.composeSucceeds_only _ _ _ _)

theorem State.takeFill_only (g : GenId) (l : List FillEntry) (u m : Bool) :
    OnlyStation i s (s.takeFill i g l u m) := by
  unfold State.takeFill
  split
  · exact State.refuseRecord_only s _ _ _ _ _
  · rename_i c _
    have k := Work.fill_keeps (s.openWork i c) l u m
    split
    · rename_i h
      rw [h] at k
      exact (State.closeWork_only s _ k.link).trans (State.refuseRecord_only _ _ _ _ _ _)
    · rename_i h
      rw [h] at k
      exact (State.closeWork_only s _ k.link).trans (State.place_only _ _ _ _)

theorem State.takeNote_only (g : GenId) (b : Bool) (x : Text) : OnlyStation i s (s.takeNote i g b x) := by
  unfold State.takeNote
  split
  · exact State.refuseRecord_only s _ _ _ _ _
  · extract_lets s1 s2 s3
    have h1 : OnlyStation i s s1 := State.modStation_only _ _ (by intro _; rfl)
    have h2 : OnlyStation i s1 s2 := State.modStation_only _ _ (by intro _; rfl)
    have h3 : OnlyStation i s2 s3 := by
      simp only [s3]
      split
      · exact State.modPaint_only _ _
      · exact .refl i _
    exact ((h1.trans h2).trans h3).trans (State.doneRecord_only _ _ _)

theorem State.takeLock_only (g : GenId) : OnlyStation i s (s.takeLock i g) := by
  unfold State.takeLock
  split
  · exact (State.setLock_only s _ _).trans (State.doneRecord_only _ _ _)
  · exact (State.modStation_only s _ (by intro _; rfl)).trans (State.doneRecord_only _ _ _)
  · exact State.doneRecord_only s _ _
  · exact State.doneRecord_only s _ _
  · exact State.refuseRecord_only s _ _ _ _ _

theorem State.takeUnlock_only (g : GenId) : OnlyStation i s (s.takeUnlock i g) := by
  unfold State.takeUnlock
  split
  · exact (State.openBlank_only s).trans (State.doneRecord_only _ _ _)
  · exact (State.act_only s _ Work.unlock_keeps).trans (State.doneRecord_only _ _ _)
  · exact State.refuseRecord_only s _ _ _ _ _

theorem State.takeResetModified_only (g : GenId) : OnlyStation i s (s.takeResetModified i g) := by
  unfold State.takeResetModified
  split
  · exact (State.modStation_only s _ (by intro _; rfl)).trans (State.doneRecord_only _ _ _)
  · exact State.refuseRecord_only s _ _ _ _ _

theorem State.takeRead_only (g : GenId) : OnlyStation i s (s.takeRead i g) := by
  unfold State.takeRead
  split
  · extract_lets s1
    have h1 : OnlyStation i s s1 := State.place_only _ _ _ _
    split
    · exact h1.trans (State.setLock_only _ _ _)
    · exact h1
  · exact State.refuseRecord_only s _ _ _ _ _

theorem State.takeRelease_only (g : GenId) : OnlyStation i s (s.takeRelease i g) := by
  unfold State.takeRelease
  split
  · extract_lets s1 s2 s3
    have h1 : OnlyStation i s s1 := (State.dropContext_only s).trans (State.supersede_only _)
    have h2 : OnlyStation i s1 s2 := State.modStation_only _ _ (by intro _; rfl)
    have h3 : OnlyStation i s2 s3 := State.setFull_only _ _
    split
    · exact ((h1.trans h2).trans h3).trans (State.endReleasing_only _)
    · exact (h1.trans h2).trans h3
  · exact (State.openBlank_only s).trans (State.doneRecord_only _ _ _)

/-- A record taken by a station. -/
theorem State.takeRecord_only (q : Queued) : OnlyStation i s (s.takeRecord i q) := by
  unfold State.takeRecord
  split
  · exact State.takeCompose_only s _ _
  · exact State.takeFill_only s _ _ _ _
  · exact State.takeNote_only s _ _ _
  · exact State.takeLock_only s _
  · exact State.takeUnlock_only s _
  · exact State.takeResetModified_only s _
  · exact State.takeRead_only s _
  · exact State.takeRelease_only s _

theorem State.takeUpTo_only (fuel : Nat) : OnlyStation i s (State.takeUpTo i fuel s) := by
  induction fuel generalizing s with
  | zero => exact .refl i s
  | succ n ih =>
    unfold State.takeUpTo
    split
    · exact .refl i s
    · split
      · exact .refl i s
      · exact ((State.modStation_only s _ (by intro _; rfl)).trans (State.takeRecord_only _ _)).trans (ih _)

theorem State.takeWaiting_only : OnlyStation i s (s.takeWaiting i) := State.takeUpTo_only s _

theorem State.finishReleasing_only : OnlyStation i s (s.finishReleasing i) :=
  (State.endReleasing_only s).trans (State.takeWaiting_only _)

theorem State.markerRendered_only : OnlyStation i s (s.markerRendered i) := by
  unfold State.markerRendered
  extract_lets s1
  have h1 : OnlyStation i s s1 := State.modPaint_only _ _
  split
  · exact h1.trans (State.endComposing_only _)
  · exact h1.trans (State.finishReleasing_only _)
  · exact h1

/-- A station record at the trunk port. -/
theorem State.arriveStation_only (r : StationRecord) (g : GenId) : OnlyStation i s (s.arriveStation i r g) := by
  unfold State.arriveStation
  split
  · exact State.refuseRecord_only s _ _ _ _ _
  split
  · exact State.refuseRecord_only s _ _ _ _ _
  · exact (State.modStation_only s _ (by intro _; rfl)).trans (State.takeWaiting_only _)

theorem State.joinTypeAhead_only (k : Byte) : OnlyStation i s (s.joinTypeAhead i k) := by
  unfold State.joinTypeAhead
  extract_lets st
  split
  · exact State.setStation_only s _ rfl
  split
  · exact .refl i s
  · exact (State.setStation_only s { st with overrun := true } rfl).trans (State.raise_only _ _)

/-- A keystroke delivered to a station. -/
theorem State.deliverKey_only (k : Byte) : OnlyStation i s (State.deliverKey i s k) := by
  unfold State.deliverKey
  split
  · exact State.act_only s _ (fun w => Work.applyKey_keeps w k)
  · exact State.joinTypeAhead_only s k
  · split
    · exact State.act_only s _ Work.resetError_keeps
    · exact .refl i s
  · exact .refl i s
  · split
    · exact State.latchBlank_only s k
    · exact .refl i s
  · exact State.joinTypeAhead_only s k
  · exact State.joinTypeAhead_only s k
  · exact State.joinTypeAhead_only s k
  · exact .refl i s
  · exact .refl i s

theorem State.lineCheckError_only : OnlyStation i s (s.lineCheckError i) := by
  unfold State.lineCheckError
  split
  · exact State.act_only s _ (fun w => Work.operatorError_keeps w _)
  · exact State.act_only s _ (fun w => Work.operatorError_keeps w _)
  · exact .refl i s

theorem State.endSnapshotFreeze_only : OnlyStation i s (s.endSnapshotFreeze i) := by
  unfold State.endSnapshotFreeze
  extract_lets s1
  have h1 : OnlyStation i s s1 := by
    simp only [s1]
    split
    · exact State.act_only s _ Work.openKeyboard_keeps
    · exact .refl i s
  exact h1.trans (State.takeWaiting_only _)

/-! ### The arrival of a frame (Trunk.lean) -/

variable {s}

/-- R181: a reserved frame is acted on with its slot, the receiver hunting. -/
theorem State.arrive_receiving {g : GenId} (h : Receiving s g) (f : State → GenId → State) :
    s.arrive f = f s.hunting g := by
  obtain ⟨h1, h2⟩ := h
  simp [State.arrive, State.beginFrame, h1, h2, State.hunting]

/-- R180: a frame marked for discard has no effect. -/
theorem State.arrive_discarding (h : Discarding s) (f : State → GenId → State) : s.arrive f = s.hunting := by
  obtain ⟨h1, h2⟩ := h
  simp [State.arrive, State.beginFrame, h1, h2, State.hunting]

/-- R195: with the reset input asserted no frame is received. -/
theorem State.arrive_reset (h : s.resetInput = true) (f : State → GenId → State) : s.arrive f = s := by
  simp [State.arrive, h]

/-- With the receiver hunting the frame's first octet comes first (assumption 2). -/
theorem State.arrive_hunting (h : s.rx = .hunting) (f : State → GenId → State) :
    s.arrive f = s.beginFrame.arrive f := by
  by_cases hr : s.resetInput = true
  · simp [State.arrive, State.beginFrame, hr]
  · cases hs : s.freeSlot <;> simp [State.arrive, State.beginFrame, h, hr, hs]

theorem State.answer_hunting (g : GenId) (r : Inbound) : s.hunting.answer g r = s.replied g 0 r := rfl

theorem State.refuseControl_hunting (g : GenId) (k : Nat) (e : Reason) :
    s.hunting.refuseControl g k e = s.replied g 0 (controlException e k) := rfl

theorem State.refuseRecord_hunting (i : StationId) (g : GenId) (k : Nat) (e : Reason) (a b : Option Nat) :
    s.hunting.refuseRecord i g k e a b = s.replied g (stationNumber i) (stationException i k e a b) := rfl

/-! ### The cut and the visit order -/

/-- R186: a frame is cut before its last octet. -/
theorem State.octetsSent_lt {octets : List Byte} (h : octets ≠ []) : s.octetsSent octets < octets.length :=
  Nat.mod_lt _ (List.length_pos_iff.mpr h)

theorem State.mem_attachedIds (i : StationId) : i ∈ s.attachedIds ↔ (s.station i).state ≠ .detached := by
  simp [State.attachedIds, State.attached, stationIds]

/-- R164: while a station is attached, the next visit goes to the one that R164 names. -/
theorem State.nextStation_some {i : StationId} (h : s.nextStation = some i) : NextInOrder s i := by
  have sorted : s.attachedIds.Pairwise (· < ·) := List.Pairwise.filter _ (List.pairwise_lt_finRange 16)
  have lowest : ∀ {l : List StationId} {k : StationId}, l.Pairwise (· < ·) → l.head? = some k → ∀ j ∈ l, k ≤ j := by
    rintro (_ | ⟨x, l⟩) k hl hk j hj
    · cases hk
    · cases hk
      rcases List.mem_cons.mp hj with rfl | hj
      · exact Fin.le_refl _
      · exact Fin.le_of_lt ((List.pairwise_cons.mp hl).1 j hj)
  unfold State.nextStation at h
  unfold NextInOrder
  cases hl : s.loop.last with
  | none =>
    rw [hl] at h
    exact ⟨(s.mem_attachedIds i).mp (List.mem_of_mem_head? h), fun k hk => lowest sorted h k ((s.mem_attachedIds k).mpr hk)⟩
  | some j =>
    simp only [hl] at h
    cases hf : s.attachedIds.find? (fun i => j < i) with
    | some k =>
      rw [hf] at h
      cases h
      obtain ⟨hk, before, after, he, hb⟩ := List.find?_eq_some_iff_append.mp hf
      have hm : i ∈ s.attachedIds := by rw [he]; simp
      refine ⟨(s.mem_attachedIds i).mp hm, .inl ⟨by simpa using hk, fun k ha hjk => ?_⟩⟩
      have hka := (s.mem_attachedIds k).mpr ha
      rw [he] at hka sorted
      rcases List.mem_append.mp hka with hkb | hkb
      · have := hb k hkb
        simp only [Bool.not_eq_true', decide_eq_false_iff_not] at this
        exact absurd hjk this
      · exact lowest (List.pairwise_append.mp sorted).2.1 rfl k hkb
    | none =>
      rw [hf] at h
      have h : s.attachedIds.head? = some i := h
      refine ⟨(s.mem_attachedIds i).mp (List.mem_of_mem_head? h), .inr (fun k hk => ?_)⟩
      have hka := (s.mem_attachedIds k).mpr hk
      have := List.find?_eq_none.mp hf k hka
      exact ⟨by simpa using this, lowest sorted h k hka⟩

end Sys2Proof.Machine
end

