-- ==== Sys2Proof/Laws/PerInstr.lean ====
section
/-! SUPPORT. A family of lemmas over all commands: the payload of a well-formed command fits the trunk (R179). -/

namespace Sys2Proof.Laws

/-- The trunk payload of a command: of the record it carries, of a received frame, or none. -/
def payloadOf (i : Instr) : List Byte :=
  match i with
  | .powerOn => []
  | .resetInputAsserted => []
  | .resetInputReleased => []
  | .loopHoldAsserted => []
  | .loopHoldDeasserted => []
  | .firstOctet => []
  | .frameRefused frame => frame.payload
  | .loadBegin p => encodeControl (.loadBegin p)
  | .loadPart entries => encodeControl (.loadPart entries)
  | .loadEnd => encodeControl .loadEnd
  | .loadAbandon => encodeControl .loadAbandon
  | .dropTemplate id => encodeControl (.dropTemplate id)
  | .attachStation station window => encodeControl (.attachStation station window)
  | .detachStation station => encodeControl (.detachStation station)
  | .loopStart speed window missLimit => encodeControl (.loopStart speed window missLimit)
  | .loopStop => encodeControl .loopStop
  | .queryComposer => encodeControl .queryComposer
  | .queryStation station => encodeControl (.queryStation station)
  | .setEvents kinds => encodeControl (.setEvents kinds)
  | .clearEvents kinds stations => encodeControl (.clearEvents kinds stations)
  | .resetComposer => encodeControl .resetComposer
  | .compose _ c => encodeStation (.compose c)
  | .set _ ref text => encodeStation (.fill [.set ref text] false false)
  | .appendRow _ row => encodeStation (.fill [.appendRow row] false false)
  | .insertRow _ position row => encodeStation (.fill [.insertRow position row] false false)
  | .deleteRow _ position => encodeStation (.fill [.deleteRow position] false false)
  | .tagRow _ position tag => encodeStation (.fill [.tagRow position tag] false false)
  | .cursor _ ref => encodeStation (.fill [.cursor ref] false false)
  | .clearModified _ entries opens => encodeStation (.fill entries opens true)
  | .note _ alarm text => encodeStation (.note alarm text)
  | .lock _ => encodeStation .lock
  | .unlock _ => encodeStation .unlock
  | .resetModified _ => encodeStation .resetModified
  | .read _ => encodeStation .read
  | .release _ => encodeStation .release
  | .transmissionStart => []
  | .lastOctetTransmitted => []
  | .visitStart => []
  | .frameTransmitted => []
  | .goodAnswer _ _ _ => []
  | .badAnswer _ => []
  | .answerLineIdle => []
  | .windowExpiry => []
  | .secondOctetNotStartPattern => []
  | .recordJoinsQueue _ record => encodeStation record

/-- The payload of a well-formed command has at most 4,096 octets. -/
def Sized.Statement (i : Instr) : Prop := i.wf = true → (payloadOf i).length ≤ Config.outboundPayload

/-- A well-formed control record fits. -/
theorem control_fits {r : ControlRecord} (h : r.wf = true) : (encodeControl r).length ≤ Config.outboundPayload := by
  simp only [ControlRecord.wf, Bool.and_eq_true, payloadOk, decide_eq_true_eq] at h
  exact h.2

/-- A well-formed station record fits. -/
theorem station_fits {r : StationRecord} (h : r.wf = true) : (encodeStation r).length ≤ Config.outboundPayload := by
  simp only [StationRecord.wf, Bool.and_eq_true, payloadOk, decide_eq_true_eq] at h
  exact h.2

/-- A well-formed frame fits. -/
theorem frame_fits {f : TrunkFrame} (h : f.wf = true) : f.payload.length ≤ Config.outboundPayload := by
  unfold TrunkFrame.wf at h
  split at h
  · rename_i hl
    have : f.payload.length = f.length.toNat := by simpa using h
    omega
  · have : f.payload = [] := by simpa using h
    simp [this]

theorem Sized.powerOn : Sized.Statement .powerOn :=
  fun _ => by simp [payloadOf]

theorem Sized.resetInputAsserted : Sized.Statement .resetInputAsserted :=
  fun _ => by simp [payloadOf]

theorem Sized.resetInputReleased : Sized.Statement .resetInputReleased :=
  fun _ => by simp [payloadOf]

theorem Sized.loopHoldAsserted : Sized.Statement .loopHoldAsserted :=
  fun _ => by simp [payloadOf]

theorem Sized.loopHoldDeasserted : Sized.Statement .loopHoldDeasserted :=
  fun _ => by simp [payloadOf]

theorem Sized.firstOctet : Sized.Statement .firstOctet :=
  fun _ => by simp [payloadOf]

theorem Sized.frameRefused (frame : TrunkFrame) : Sized.Statement (.frameRefused frame) :=
  fun h => frame_fits h

theorem Sized.loadBegin (p : LoadBegin) : Sized.Statement (.loadBegin p) :=
  fun h => control_fits h

theorem Sized.loadPart (entries : List LoadEntry) : Sized.Statement (.loadPart entries) :=
  fun h => control_fits h

theorem Sized.loadEnd : Sized.Statement .loadEnd :=
  fun _ => by simp [payloadOf, encodeControl, Config.outboundPayload]

theorem Sized.loadAbandon : Sized.Statement .loadAbandon :=
  fun _ => by simp [payloadOf, encodeControl, Config.outboundPayload]

theorem Sized.dropTemplate (id : Nat) : Sized.Statement (.dropTemplate id) :=
  fun h => control_fits h

theorem Sized.attachStation (station window : Nat) : Sized.Statement (.attachStation station window) :=
  fun h => control_fits h

theorem Sized.detachStation (station : Nat) : Sized.Statement (.detachStation station) :=
  fun h => control_fits h

theorem Sized.loopStart (speed window missLimit : Nat) : Sized.Statement (.loopStart speed window missLimit) :=
  fun h => control_fits h

theorem Sized.loopStop : Sized.Statement .loopStop :=
  fun _ => by simp [payloadOf, encodeControl, Config.outboundPayload]

theorem Sized.queryComposer : Sized.Statement .queryComposer :=
  fun _ => by simp [payloadOf, encodeControl, Config.outboundPayload]

theorem Sized.queryStation (station : Nat) : Sized.Statement (.queryStation station) :=
  fun h => control_fits h

theorem Sized.setEvents (kinds : Mask) : Sized.Statement (.setEvents kinds) :=
  fun _ => by simp [payloadOf, encodeControl, encodeWord, Config.outboundPayload]

theorem Sized.clearEvents (kinds : Mask) (stations : Option Mask) : Sized.Statement (.clearEvents kinds stations) :=
  fun _ => by simp [payloadOf, encodeControl, encodeWord, Config.outboundPayload]

theorem Sized.resetComposer : Sized.Statement .resetComposer :=
  fun _ => by simp [payloadOf, encodeControl, Config.outboundPayload]

theorem Sized.compose (i : StationId) (c : ComposeRec) : Sized.Statement (.compose i c) :=
  fun h => station_fits h

theorem Sized.set (i : StationId) (ref : FieldRef) (text : Text) : Sized.Statement (.set i ref text) :=
  fun h => station_fits h

theorem Sized.appendRow (i : StationId) (row : RowEntry) : Sized.Statement (.appendRow i row) :=
  fun h => station_fits h

theorem Sized.insertRow (i : StationId) (position : Nat) (row : RowEntry) :
    Sized.Statement (.insertRow i position row) :=
  fun h => station_fits h

theorem Sized.deleteRow (i : StationId) (position : Nat) : Sized.Statement (.deleteRow i position) :=
  fun h => station_fits h

theorem Sized.tagRow (i : StationId) (position tag : Nat) : Sized.Statement (.tagRow i position tag) :=
  fun h => station_fits h

theorem Sized.cursor (i : StationId) (ref : FieldRef) : Sized.Statement (.cursor i ref) :=
  fun h => station_fits h

theorem Sized.clearModified (i : StationId) (entries : List FillEntry) (unlock : Bool) :
    Sized.Statement (.clearModified i entries unlock) :=
  fun h => station_fits h

theorem Sized.note (i : StationId) (alarm : Bool) (text : Text) : Sized.Statement (.note i alarm text) :=
  fun h => station_fits h

theorem Sized.lock (i : StationId) : Sized.Statement (.lock i) :=
  fun _ => by simp [payloadOf, encodeStation, Config.outboundPayload]

theorem Sized.unlock (i : StationId) : Sized.Statement (.unlock i) :=
  fun _ => by simp [payloadOf, encodeStation, Config.outboundPayload]

theorem Sized.resetModified (i : StationId) : Sized.Statement (.resetModified i) :=
  fun _ => by simp [payloadOf, encodeStation, Config.outboundPayload]

theorem Sized.read (i : StationId) : Sized.Statement (.read i) :=
  fun _ => by simp [payloadOf, encodeStation, Config.outboundPayload]

theorem Sized.release (i : StationId) : Sized.Statement (.release i) :=
  fun _ => by simp [payloadOf, encodeStation, Config.outboundPayload]

theorem Sized.transmissionStart : Sized.Statement .transmissionStart :=
  fun _ => by simp [payloadOf]

theorem Sized.lastOctetTransmitted : Sized.Statement .lastOctetTransmitted :=
  fun _ => by simp [payloadOf]

theorem Sized.visitStart : Sized.Statement .visitStart :=
  fun _ => by simp [payloadOf]

theorem Sized.frameTransmitted : Sized.Statement .frameTransmitted :=
  fun _ => by simp [payloadOf]

theorem Sized.goodAnswer (e r : Fin 8) (keys : List Byte) : Sized.Statement (.goodAnswer e r keys) :=
  fun _ => by simp [payloadOf]

theorem Sized.badAnswer (octets : List Byte) : Sized.Statement (.badAnswer octets) :=
  fun _ => by simp [payloadOf]

theorem Sized.answerLineIdle : Sized.Statement .answerLineIdle :=
  fun _ => by simp [payloadOf]

theorem Sized.windowExpiry : Sized.Statement .windowExpiry :=
  fun _ => by simp [payloadOf]

theorem Sized.secondOctetNotStartPattern : Sized.Statement .secondOctetNotStartPattern :=
  fun _ => by simp [payloadOf]

theorem Sized.recordJoinsQueue (i : StationId) (record : StationRecord) : Sized.Statement (.recordJoinsQueue i record) :=
  fun h => station_fits h

end Sys2Proof.Laws
end

