-- ==== Sys2Proof/Laws/Tabs.lean ====
section
/-! SUPPORT. The tab set (R76): what stands in it, that the searches for a first and a last start find the targets of R78
to R83, and that there is one such target only. -/

namespace Sys2Proof.Machine

/-! ### Screen order (R75) -/

theorem Pos.before_iff (p q : Pos) : p.before q = true ↔ p.row < q.row ∨ p.row = q.row ∧ p.col < q.col := by
  simp [Pos.before]

theorem Pos.before_irrefl (p : Pos) : p.before p = false := by
  simp [Pos.before]

theorem Pos.before_trans {p q r : Pos} (h : p.before q = true) (k : q.before r = true) : p.before r = true := by
  rw [Pos.before_iff] at *; omega

/-- Of two positions one is the other, or comes before it. -/
theorem Pos.before_total (p q : Pos) : p = q ∨ p.before q = true ∨ q.before p = true := by
  rcases p with ⟨a, b⟩
  rcases q with ⟨c, d⟩
  simp only [Pos.before_iff, Pos.mk.injEq]
  omega

theorem Pos.before_asymm {p q : Pos} (h : p.before q = true) : q.before p = false := by
  cases hk : q.before p with
  | false => rfl
  | true => rw [Pos.before_iff] at *; omega

/-! ### The searches -/

/-- A search for a first position, begun with `b`, finds `b` or a position of the list, none of them coming before it. -/
theorem firstPos_from (l : List Pos) (b : Pos) :
    ∃ q, l.foldl (fun best q => match best with
        | none => some q
        | some b => if q.before b then some q else some b) (some b) = some q
      ∧ (q = b ∨ q ∈ l) ∧ ∀ s, s = b ∨ s ∈ l → s = q ∨ q.before s = true := by
  induction l generalizing b with
  | nil => exact ⟨b, rfl, .inl rfl, by simp⟩
  | cons x l ih =>
    cases hx : x.before b with
    | true =>
      obtain ⟨q, hq, hm, ha⟩ := ih x
      refine ⟨q, by simpa [hx] using hq, .inr (by simpa using hm), fun s hs => ?_⟩
      rcases hs with rfl | hs
      · rcases ha x (.inl rfl) with rfl | h
        · exact .inr hx
        · exact .inr (Pos.before_trans h hx)
      · exact ha s (by simpa using hs)
    | false =>
      obtain ⟨q, hq, hm, ha⟩ := ih b
      refine ⟨q, by simpa [hx] using hq, hm.imp_right (.tail _), fun s hs => ?_⟩
      rcases hs with rfl | hs
      · exact ha s (.inl rfl)
      · rcases List.mem_cons.mp hs with rfl | hs
        · rcases ha b (.inl rfl) with rfl | h
          · rcases Pos.before_total s b with h | h | h
            · exact .inl h
            · rw [hx] at h; cases h
            · exact .inr h
          · rcases Pos.before_total s b with rfl | k | k
            · exact .inr h
            · rw [hx] at k; cases k
            · exact .inr (Pos.before_trans h k)
        · exact ha s (.inr hs)

/-- The first position of a list is in it, and no other comes before it. -/
theorem firstPos_spec {l : List Pos} {q : Pos} (h : firstPos l = some q) :
    q ∈ l ∧ ∀ s ∈ l, s = q ∨ q.before s = true := by
  cases l with
  | nil => cases h
  | cons x l =>
    obtain ⟨p, hp, hm, ha⟩ := firstPos_from l x
    have : p = q := Option.some.inj (hp.symm.trans h)
    subst this
    exact ⟨by simpa using hm, fun s hs => ha s (by simpa using hs)⟩

theorem firstPos_none {l : List Pos} : firstPos l = none ↔ l = [] := by
  cases l with
  | nil => simp [firstPos]
  | cons x l =>
    obtain ⟨p, hp, _⟩ := firstPos_from l x
    have : firstPos (x :: l) = some p := hp
    simp [this]

theorem lastPos_from (l : List Pos) (b : Pos) :
    ∃ q, l.foldl (fun best q => match best with
        | none => some q
        | some b => if b.before q then some q else some b) (some b) = some q
      ∧ (q = b ∨ q ∈ l) ∧ ∀ s, s = b ∨ s ∈ l → s = q ∨ s.before q = true := by
  induction l generalizing b with
  | nil => exact ⟨b, rfl, .inl rfl, by simp⟩
  | cons x l ih =>
    cases hx : b.before x with
    | true =>
      obtain ⟨q, hq, hm, ha⟩ := ih x
      refine ⟨q, by simpa [hx] using hq, .inr (by simpa using hm), fun s hs => ?_⟩
      rcases hs with rfl | hs
      · rcases ha x (.inl rfl) with rfl | h
        · exact .inr hx
        · exact .inr (Pos.before_trans hx h)
      · exact ha s (by simpa using hs)
    | false =>
      obtain ⟨q, hq, hm, ha⟩ := ih b
      refine ⟨q, by simpa [hx] using hq, hm.imp_right (.tail _), fun s hs => ?_⟩
      rcases hs with rfl | hs
      · exact ha s (.inl rfl)
      · rcases List.mem_cons.mp hs with rfl | hs
        · rcases ha b (.inl rfl) with rfl | h
          · rcases Pos.before_total s b with h | h | h
            · exact .inl h
            · exact .inr h
            · rw [hx] at h; cases h
          · rcases Pos.before_total s b with rfl | k | k
            · exact .inr h
            · exact .inr (Pos.before_trans k h)
            · rw [hx] at k; cases k
        · exact ha s (.inr hs)

/-- The last position of a list is in it, and comes before no other. -/
theorem lastPos_spec {l : List Pos} {q : Pos} (h : lastPos l = some q) :
    q ∈ l ∧ ∀ s ∈ l, s = q ∨ s.before q = true := by
  cases l with
  | nil => cases h
  | cons x l =>
    obtain ⟨p, hp, hm, ha⟩ := lastPos_from l x
    have : p = q := Option.some.inj (hp.symm.trans h)
    subst this
    exact ⟨by simpa using hm, fun s hs => ha s (by simpa using hs)⟩

theorem lastPos_none {l : List Pos} : lastPos l = none ↔ l = [] := by
  cases l with
  | nil => simp [lastPos]
  | cons x l =>
    obtain ⟨p, hp, _⟩ := lastPos_from l x
    have : lastPos (x :: l) = some p := hp
    simp [this]

/-! ### The tab set (R76) -/

/-- A slot shows a row exactly when the row is in the list. -/
theorem Context.slotRow_isSome (c : Context) (k : Nat) :
    (c.slotRow (k + 1)).isSome = true ↔ 1 ≤ c.first + k ∧ c.first + k ≤ c.rows.length := by
  simp only [Context.slotRow, show c.first + (k + 1) - 1 = c.first + k by omega]
  split <;> simp_all

/-- The starts of the tab set are those that R76 names. -/
theorem mem_tabStarts (v : TemplateVersion) (c : Context) (q : Pos) : q ∈ tabStarts v c ↔ TabStart v c q := by
  simp only [tabStarts, List.mem_append, List.mem_map, List.mem_filter, List.mem_flatMap, List.mem_range]
  refine or_congr ⟨?_, ?_⟩ ⟨?_, ?_⟩
  · rintro ⟨d, ⟨hd, hp⟩, rfl⟩
    exact ⟨d, hd, by simpa using hp, rfl⟩
  · rintro ⟨d, hd, hp, rfl⟩
    exact ⟨d, ⟨hd, by simpa using hp⟩, rfl⟩
  · rintro ⟨k, hk, hq⟩
    split at hq
    · rename_i h
      simp only [List.mem_map, List.mem_filter] at hq
      obtain ⟨d, ⟨hd, hp⟩, rfl⟩ := hq
      obtain ⟨h1, h2⟩ := (c.slotRow_isSome k).mp h
      exact ⟨k, hk, h1, h2, d, hd, by simpa using hp, rfl⟩
    · cases hq
  · rintro ⟨k, hk, h1, h2, d, hd, hp, rfl⟩
    refine ⟨k, hk, ?_⟩
    rw [if_pos ((c.slotRow_isSome k).mpr ⟨h1, h2⟩)]
    exact List.mem_map.mpr ⟨d, List.mem_filter.mpr ⟨hd, by simpa using hp⟩, rfl⟩

/-- HOME goes to the target of R82. -/
theorem homePos_target (v : TemplateVersion) (c : Context) : HomeTarget v c (homePos v c) := by
  unfold homePos orOrigin
  cases h : firstPos (tabStarts v c) with
  | none =>
    refine .inr ⟨fun s hs => ?_, rfl⟩
    rw [← mem_tabStarts, firstPos_none.mp h] at hs
    cases hs
  | some q =>
    obtain ⟨hq, ha⟩ := firstPos_spec h
    exact .inl ⟨(mem_tabStarts ..).mp hq, trivial, fun s hs _ => ha s ((mem_tabStarts ..).mpr hs)⟩

/-- What TAB and NEWLINE search for is their target, HOME's where there is none. -/
theorem forward_target (v : TemplateVersion) (c : Context) (f : Pos → Bool) :
    ForwardTarget v c (fun s => f s = true)
      (match firstPos ((tabStarts v c).filter f) with
        | some s => s
        | none => homePos v c) := by
  cases h : firstPos ((tabStarts v c).filter f) with
  | none =>
    refine .inr ⟨fun s hs hf => ?_, homePos_target v c⟩
    have := List.filter_eq_nil_iff.mp (firstPos_none.mp h) s ((mem_tabStarts ..).mpr hs)
    exact this hf
  | some q =>
    obtain ⟨hq, ha⟩ := firstPos_spec h
    obtain ⟨hq, hf⟩ := List.mem_filter.mp hq
    exact .inl ⟨(mem_tabStarts ..).mp hq, hf,
      fun s hs hsf => ha s (List.mem_filter.mpr ⟨(mem_tabStarts ..).mpr hs, hsf⟩)⟩

/-- TAB goes to the target of R78. -/
theorem nextTab_target (v : TemplateVersion) (c : Context) (q : Pos) :
    ForwardTarget v c (fun s => q.before s = true) (nextTab v c q) :=
  forward_target v c (fun s => q.before s)

/-- NEWLINE goes to the target of R83. -/
theorem nextRowTab_target (v : TemplateVersion) (c : Context) (q : Pos) :
    ForwardTarget v c (fun s => q.row < s.row) (nextRowTab v c q) := by
  have h := forward_target v c (fun s => decide (q.row < s.row))
  simp only [decide_eq_true_eq] at h
  exact h

/-- BACKTAB goes to the target of R80. -/
theorem previousTab_target (v : TemplateVersion) (c : Context) : BackwardTarget v c (previousTab v c c.cursor) := by
  unfold previousTab
  cases h : lastPos ((tabStarts v c).filter (fun s => s.before c.cursor)) with
  | none =>
    refine .inr ⟨fun s hs => ?_, ?_⟩
    · simpa using List.filter_eq_nil_iff.mp (lastPos_none.mp h) s ((mem_tabStarts ..).mpr hs)
    · cases k : lastPos (tabStarts v c) with
      | none =>
        refine .inr ⟨fun s hs => ?_, rfl⟩
        rw [← mem_tabStarts, lastPos_none.mp k] at hs
        cases hs
      | some q =>
        obtain ⟨hq, ha⟩ := lastPos_spec k
        exact .inl ⟨(mem_tabStarts ..).mp hq, trivial, fun s hs _ => ha s ((mem_tabStarts ..).mpr hs)⟩
  | some q =>
    obtain ⟨hq, ha⟩ := lastPos_spec h
    obtain ⟨hq, hb⟩ := List.mem_filter.mp hq
    exact .inl ⟨(mem_tabStarts ..).mp hq, hb,
      fun s hs hsb => ha s (List.mem_filter.mpr ⟨(mem_tabStarts ..).mpr hs, hsb⟩)⟩

/-! ### One target -/

theorem firstTab_unique {v : TemplateVersion} {c : Context} {P : Pos → Prop} {p q : Pos} (h : FirstTab v c P p)
    (k : FirstTab v c P q) : p = q := by
  rcases h.2.2 q k.1 k.2.1 with e | e
  · exact e.symm
  · rcases k.2.2 p h.1 h.2.1 with f | f
    · exact f
    · rw [Pos.before_asymm e] at f; cases f

theorem lastTab_unique {v : TemplateVersion} {c : Context} {P : Pos → Prop} {p q : Pos} (h : LastTab v c P p)
    (k : LastTab v c P q) : p = q := by
  rcases h.2.2 q k.1 k.2.1 with e | e
  · exact e.symm
  · rcases k.2.2 p h.1 h.2.1 with f | f
    · exact f
    · rw [Pos.before_asymm e] at f; cases f

theorem homeTarget_unique {v : TemplateVersion} {c : Context} {p q : Pos} (h : HomeTarget v c p)
    (k : HomeTarget v c q) : p = q := by
  rcases h with h | ⟨h, rfl⟩ <;> rcases k with k | ⟨k, rfl⟩
  · exact firstTab_unique h k
  · exact absurd h.1 (k p)
  · exact absurd k.1 (h q)
  · rfl

theorem forwardTarget_unique {v : TemplateVersion} {c : Context} {P : Pos → Prop} {p q : Pos}
    (h : ForwardTarget v c P p) (k : ForwardTarget v c P q) : p = q := by
  rcases h with h | ⟨h, h'⟩ <;> rcases k with k | ⟨k, k'⟩
  · exact firstTab_unique h k
  · exact absurd h.2.1 (k p h.1)
  · exact absurd k.2.1 (h q k.1)
  · exact homeTarget_unique h' k'

theorem backwardTarget_unique {v : TemplateVersion} {c : Context} {p q : Pos} (h : BackwardTarget v c p)
    (k : BackwardTarget v c q) : p = q := by
  rcases h with h | ⟨h, h'⟩ <;> rcases k with k | ⟨k, k'⟩
  · exact lastTab_unique h k
  · exact absurd h.2.1 (by simp [k p h.1])
  · exact absurd k.2.1 (by simp [h q k.1])
  · rcases h' with h' | ⟨h', rfl⟩ <;> rcases k' with k' | ⟨k', rfl⟩
    · exact lastTab_unique h' k'
    · exact absurd h'.1 (k' p)
    · exact absurd k'.1 (h' q)
    · rfl

end Sys2Proof.Machine
end

