-- ==== Sys2Proof/Tests/Slice0.lean ====
section
/-! SUPPORT. Tests: ill-formed commands, records written out octet by octet from 11.2, the worked cases of the chapters,
and for every statement with hypotheses a state that meets them. The form is the order of template 12 (4.12, 5.9, 7.7). -/

namespace Sys2Proof.Tests

set_option Elab.async false

open Sys2Proof Sys2Proof.Machine

/-! ### Template 12 and the states of the tests -/

/-- A TEXT field definition of template 12, without entry flags. -/
def plainField (id row col width : Nat) : FieldDef :=
  { id := id, rowRegion := decide (row = 0), prot := false, mandatoryEntry := false, mandatoryFill := false
    autoSkip := false, kind := .text, attr := 0, row := row, col := col, width := width, initial := [] }

def unsigned (scale : Nat) : NumericPart := { signed := false, scale := scale, min := none, max := none }

/-- 7.7: the fixed fields ORDREF, DISC, a CODE of letters, DLVNOTE and TOTWT; DISC refuses what is above 50.00, and a CODE
that was keyed must be full. -/
def orderFixed : List FieldDef :=
  [{ plainField 3 3 60 10 with mandatoryEntry := true },
   { plainField 6 6 60 5 with kind := .numeric { unsigned 2 with max := some 5000 } 1 },
   { plainField 7 6 70 3 with kind := .alpha, mandatoryFill := true },
   plainField 9 21 12 40,
   { plainField 10 22 60 10 with
      prot := true, kind := .sum (unsigned 2) 24 { overflow := 0, report := 1 } }]

/-- 4.12, 5.9: the row fields ITEM, DESC, QTY, UWT and LWT; QTY has a minimum of 1 here. -/
def orderRows : List FieldDef :=
  [{ plainField 20 0 2 8 with autoSkip := true },
   { plainField 21 0 12 30 with prot := true },
   { plainField 22 0 44 5 with kind := .numeric { unsigned 0 with min := some 1, max := some 9999 } 0 },
   { plainField 23 0 50 8 with prot := true, kind := .numeric (unsigned 3) 0 },
   { plainField 24 0 60 9 with
      prot := true, kind := .product (unsigned 2) 22 23 { overflow := 0, report := 1 } }]

def orderGroup : Group := { first := 9, visible := 12, maxRows := 60, insertAllowed := true, deleteAllowed := true }

def title : LiteralRun := { row := 1, col := 1, attr := 0, text := chars ['O', 'R', 'D', 'E', 'R'] }

def orderVersion : TemplateVersion :=
  { id := 12, version := 0, status := .live, useCount := 1, group := orderGroup, fixed := orderFixed
    rowDefs := orderRows, literals := [title] }

def orderRow (tag : Nat) (qty uwt : List Char) : RowEntry :=
  { tag := tag, values := [{ id := 22, text := chars qty }, { id := 23, text := chars uwt }] }

/-- 5.9: an order of three lines. -/
def orderRecord : ComposeRec :=
  { id := 12, unlock := true, keepTypeAhead := false, report := false, cursor := { id := 0, position := 0 }
    fixed := []
    rows := [orderRow 6201 ['1', '2'] ['2', '.', '3', '7', '5'], orderRow 6202 ['7'] ['0', '.', '1', '2', '5'],
             orderRow 6203 ['3'] ['1', '4', '.', '2', '0', '5']] }

def emptyForm : Context :=
  { entry := 0, fixed := orderFixed.map initialInst, rows := [], first := 1, cursor := ⟨1, 1⟩, insertMode := false
    editing := false, deletedTags := [], adjusted := false }

/-- A station ONLINE with nothing in flight and nothing to paint. -/
def onlineStation : Station :=
  { Station.detachedRecord with
    state := .blank, lock := .none
    link := some { online := true, missCount := 0, n := 5, a := 5, restart := false, window := 2 } }

/-- The part with its start-up notice gone, a version in entry 0, a staged load or none, and station 1 as given. -/
def stored (v : TemplateVersion) (x : Option Staging) (st : Station) : State :=
  { State.reset with
    raw := RawEvents.empty, event := .empty, waiting := [], table := State.reset.table.set 0 (some v), staging := x
    stations := State.reset.stations.set 0 st }

/-- Template 12 with no form built on it, and station 1 as given. -/
def partWith (st : Station) : State := stored { orderVersion with useCount := 0 } none st

/-- The context that steps 3 to 5 of the COMPOSE build. -/
@[irreducible] def orderForm : Context :=
  match buildContext orderVersion 0 orderRecord with
  | .ok c => (Work.tallyAll ((stored orderVersion none onlineStation).openWork 0 c)).c
  | .error _ => emptyForm

/-- The order in ENTRY with lock NONE, the cursor at `q`. -/
def orderStation (q : Pos) : Station :=
  { onlineStation with state := .entry, ctx := some { orderForm with cursor := q } }

/-- The order in another state and lock. -/
def orderIn (state : StationState) (l : Lock) : Station :=
  { orderStation ⟨9, 44⟩ with state := state, lock := l }

/-- The part with a station 1 that holds the order: the three rows are taken from the pool. -/
def withForm (st : Station) : State := { stored orderVersion none st with freeRows := 509 }

def orderPart (q : Pos) : State := withForm (orderStation q)

/-- The receiver in a frame that has reserved slot 0. -/
def inFrame (s : State) : State := { s with rx := .frame (some 0), general := s.general.set 0 .reserved }

/-- The order with the record of a frame about to be taken. -/
def taking (st : Station) : State := inFrame (withForm st)

def inEntry (q : Pos) : State := taking (orderStation q)

/-- The part with the loop RUNNING and station 1 visited with a frame, sent or not. -/
def visiting (f : LoopFrame) (sent : Bool) (s : State) : State :=
  { s with loop := { s.loop with mode := .running, visit := some { station := 0, frame := f, sent := sent } } }

/-- The part with the loop in a mode, no visit under way. -/
def looping (mode : LoopMode) (stop : Option GenId) (s : State) : State :=
  { s with loop := { s.loop with mode := mode, pendingStop := stop } }

/-- The station record after an outcome. -/
def stationAfter (o : Host.Outcome State Fault Refusal) : Option Station :=
  match o with
  | .next t => some (t.station 0)
  | _ => none

/-- The text of row field `j` of row `p` of a station. -/
def rowText (st : Option Station) (p j : Nat) : Option Text :=
  (st.bind Station.ctx).bind (fun c => (c.inst? (.row p j)).map FieldInst.text)

def fixedText (st : Option Station) (j : Nat) : Option Text :=
  (st.bind Station.ctx).bind (fun c => (c.inst? (.fixed j)).map FieldInst.text)

/-! ### Ill-formed commands -/

def wideText : Text := List.replicate 256 0x20

/-- One ill-formed command for each check of WellFormed.lean. -/
theorem test_ill_formed_refused :
    [Instr.dropTemplate 256,
     .loadBegin { id := 1, group := orderGroup, fixedCount := 0, rowCount := 1, literalCount := 1
                  literalTotal := 65536 },
     .loadBegin { id := 1, group := { orderGroup with visible := 256 }, fixedCount := 0, rowCount := 1
                  literalCount := 0, literalTotal := 0 },
     .note 0 false wideText,
     .loadPart (List.replicate 256 (.literal title)),
     .loadPart [.literal { title with col := 256 }],
     .loadPart [.field { plainField 1 2 1 4 with kind := .numeric { unsigned 0 with min := some (2 ^ 47) } 0 }],
     .loadPart [.field { plainField 1 2 1 4 with kind := .numeric { unsigned 0 with max := some (-2 ^ 47 - 1) } 0 }],
     .loadPart [.field { plainField 1 2 1 4 with kind := .numeric (unsigned 256) 0 }],
     .loadPart [.field { plainField 1 2 1 4 with kind := .numeric (unsigned 0) 256 }],
     .loadPart [.field { plainField 1 2 1 4 with kind := .product (unsigned 0) 256 1 ⟨0, 0⟩ }],
     .loadPart [.field { plainField 1 2 1 4 with kind := .sum (unsigned 0) 1 ⟨256, 0⟩ }],
     .loadPart [.field (plainField 256 2 1 4)],
     .compose 0 { orderRecord with cursor := ⟨1, 256⟩ },
     .compose 0 { orderRecord with rows := [{ tag := 65536, values := [] }] },
     .compose 0 { orderRecord with fixed := List.replicate 20 ⟨1, List.replicate 255 0x20⟩ },
     .set 0 ⟨1, 256⟩ [], .appendRow 0 ⟨0, List.replicate 256 ⟨1, []⟩⟩, .insertRow 0 256 ⟨0, []⟩, .deleteRow 0 256,
     .tagRow 0 1 65536, .cursor 0 ⟨256, 0⟩, .clearModified 0 [.deleteRow 256] false,
     .attachStation 1 256, .detachStation 256, .loopStart 256 0 0, .queryStation 256,
     .goodAnswer 0 0 (List.replicate 13 0x20),
     .frameRefused { frameOf 0 6 [1, 0] with length := 3 },
     .frameRefused { frameOf 0 6 [1, 0] with length := 4097 },
     .recordJoinsQueue 0 (.note false wideText)].all (fun c => !c.wf) = true := by decide +kernel

/-- The same checks pass what is in their ranges. -/
theorem test_well_formed_admitted :
    [Instr.dropTemplate 255, .note 0 true (List.replicate 255 0x20), .loadPart (orderFixed.map LoadEntry.field),
     .loadPart (orderRows.map LoadEntry.field), .compose 0 orderRecord, .goodAnswer 7 7 (List.replicate 12 0x20),
     .loadPart [.field { plainField 1 2 1 4 with kind := .numeric { unsigned 0 with min := some (-2 ^ 47) } 255 }],
     .frameRefused (frameOf 0 6 [1, 0])].all Instr.wf = true := by decide +kernel

/-! ### Octets: the check, the records of 11.2, the answer of 11.4 -/

/-- The published check value of this CRC over the digits 1 to 9 is 29B1h. -/
theorem test_crc_check_value :
    crc16 [0x31, 0x32, 0x33, 0x34, 0x35, 0x36, 0x37, 0x38, 0x39] = 0x29B1#16 := by decide +kernel

/-- 11.2: payloads of control records, octet by octet. -/
theorem test_control_records_decode :
    decodeControl 0x01 [12, 9, 12, 60, 3, 10, 5, 8, 0, 160] = some (.loadBegin
        { id := 12, group := orderGroup, fixedCount := 10, rowCount := 5, literalCount := 8, literalTotal := 160 })
      ∧ decodeControl 0x02 [2, 2, 1, 1, 0, 1, 0x41,
          1, 22, 0x01, 2, 0, 0, 44, 5, 1, 0, 2, 0, 0, 0, 0, 0, 0x27, 0x0F, 0] = some (.loadPart
        [.literal { row := 1, col := 1, attr := 0, text := [0x41] },
         .field { plainField 22 0 44 5 with kind := .numeric { unsigned 0 with max := some 9999 } 0 }])
      ∧ decodeControl 0x06 [16, 0] = some (.attachStation 16 0)
      ∧ decodeControl 0x08 [3, 15, 7] = some (.loopStart 3 15 7)
      ∧ decodeControl 0x0D [0x00, 0x0A, 2, 0x80, 0x01] = some (.clearEvents 0x000A#16 (some 0x8001#16))
      ∧ decodeControl 0x20 [] = none ∧ decodeControl 0x06 [16] = none ∧ decodeControl 0x06 [16, 0, 0] = none := by
  decide +kernel

/-- R6, R8, R196: a min of −1 in six octets; a part presence that does not match the kind. -/
theorem test_numeric_part_decodes :
    getField [6, 0x20, 2, 0, 6, 60, 6, 1, 2, 1, 1, 0xFF, 0xFF, 0xFF, 0xFF, 0xFF, 0xFF, 0]
        = some ({ plainField 6 6 60 6 with
            kind := .numeric { signed := true, scale := 2, min := some (-1), max := none } 1 }, [])
      ∧ getField [6, 0, 2, 0, 6, 60, 6, 3, 2, 0, 1, 0] = none
      ∧ getField [6, 0, 5, 0, 6, 60, 6, 0, 0] = none := by decide +kernel

/-- 11.2: payloads of station records, octet by octet. -/
theorem test_station_records_decode :
    decodeStation 0x20 [12, 0x05, 22, 4, 1, 3, 1, 0x41, 1, 0x14, 0x01, 1, 20, 0] = some (.compose
        { id := 12, unlock := true, keepTypeAhead := false, report := true, cursor := ⟨22, 4⟩
          fixed := [⟨3, [0x41]⟩], rows := [⟨5121, [⟨20, []⟩]⟩] })
      ∧ decodeStation 0x21 [0x02, 6, 1, 3, 0, 1, 0x42, 2, 0, 0, 0, 3, 1, 0, 7, 0, 4, 2, 5, 4, 0x13, 0xF0, 6, 22, 4]
        = some (.fill [.set ⟨3, 0⟩ [0x42], .appendRow ⟨0, []⟩, .insertRow 1 ⟨7, []⟩, .deleteRow 2,
            .tagRow 4 5104, .cursor ⟨22, 4⟩] false true)
      ∧ decodeStation 0x22 [1, 2, 0x48, 0x49] = some (.note true [0x48, 0x49])
      ∧ decodeStation 0x23 [] = some .lock ∧ decodeStation 0x27 [] = some .release
      ∧ decodeStation 0x21 [0, 1, 7] = none ∧ decodeStation 0x06 [1, 0] = none := by decide +kernel

/-- R197: an answer of station 3 with E 5 and R 2 and the key A; the unassigned bits are ignored, a wrong check and a
wrong station are bad. -/
theorem test_answer_read :
    readAnswer 2 [3, 0x25, 1, 0x41, 0x66] = some { e := 5, r := 2, keys := [0x41] }
      ∧ readAnswer 2 [3, 0xAD, 0, 0xAE] = some { e := 5, r := 2, keys := [] }
      ∧ readAnswer 2 [3, 0x25, 1, 0x41, 0x67] = none ∧ readAnswer 1 [3, 0x25, 1, 0x41, 0x66] = none
      ∧ readAnswer 2 [3, 0x25, 13] = none := by decide +kernel

/-- 11.4: the octets of a poll frame of station 3, and of a paint frame with block 5 and the restart mark. -/
theorem test_loop_frames :
    visitOctets { station := 2, frame := .poll, sent := false } = [3, 1, 2]
      ∧ visitOctets { station := 2, frame := .paint 5 true [.clear, .position 24 1, .text [0x41]], sent := false }
        = [3, 2, 0x85, 7, 1, 2, 24, 1, 4, 1, 0x41, 0xDD] := by decide +kernel

/-! ### The worked cases -/

/-- 5.9: the line weights 28.50, 0.88 and 42.62, and the order weight 72.00. -/
theorem test_line_weights :
    rowText (some (orderStation ⟨1, 1⟩)) 1 4 = some (chars [' ', ' ', ' ', ' ', '2', '8', '.', '5', '0'])
      ∧ rowText (some (orderStation ⟨1, 1⟩)) 2 4 = some (chars [' ', ' ', ' ', ' ', ' ', '0', '.', '8', '8'])
      ∧ rowText (some (orderStation ⟨1, 1⟩)) 3 4 = some (chars [' ', ' ', ' ', ' ', '4', '2', '.', '6', '2'])
      ∧ fixedText (some (orderStation ⟨1, 1⟩)) 4
        = some (chars [' ', ' ', ' ', ' ', ' ', '7', '2', '.', '0', '0']) := by decide +kernel

/-- 5.9: 12000 keyed over the 7 of row 2: the fifth digit fills the field, whose exit clamps to 9,999; the line shows
1249.88 and the order 1321.00. -/
theorem test_clamped_quantity :
    let st := some (([0x31, 0x32, 0x30, 0x30, 0x30].foldl (State.deliverKey 0) (orderPart ⟨10, 44⟩)).station 0)
    rowText st 2 2 = some (chars [' ', '9', '9', '9', '9'])
      ∧ rowText st 2 4 = some (chars [' ', ' ', '1', '2', '4', '9', '.', '8', '8'])
      ∧ fixedText st 4 = some (chars [' ', ' ', ' ', '1', '3', '2', '1', '.', '0', '0'])
      ∧ (st.bind Station.ctx).map Context.adjusted = some true := by decide +kernel

/-- 5.9: a product of 9,999 × 9,999,999 at scale 3 saturates its field of eight digits, without an excursion. -/
theorem test_saturated_line :
    (match productAccumulator 0 3 (some 9999) (some 9999999) with
      | some a =>
        some ((fitResult { width := 9, signed := false, scale := 2 } 0 a (initialInst (plainField 1 0 60 9))).value,
          a.value, a.excursion)
      | none => none) = some (some 99999999, 999899900010, 0) := by decide +kernel

/-- 5.9: rounding is half away from zero. -/
theorem test_rounding : divRound 8750 100 = 88 ∧ divRound (-8750) 100 = -88 ∧ divRound 8749 100 = 87 := by
  decide +kernel

/-- 1.10: the declared counts leave 47 entries, 2,033 definitions and 16,224 characters. -/
theorem test_load_begin_reserves :
    (match exec (.loadBegin { id := 12, group := orderGroup, fixedCount := 10, rowCount := 5, literalCount := 8
                              literalTotal := 160 }) (inFrame State.reset) with
      | .next t => [t.freeEntries, t.freeDefinitions, t.freeLiterals]
      | _ => []) = [47, 2033, 16224] := by decide +kernel

/-- 6.7: SET of UWT of a row with QTY 6 to 0.8 gives a line of 4.80; DELETE ROW 2 takes 0.88 off the order. -/
theorem test_fill_worked :
    rowText (stationAfter (exec (.set 0 ⟨23, 3⟩ (chars ['0', '.', '8'])) (inFrame (orderPart ⟨13, 2⟩)))) 3 4
        = some (chars [' ', ' ', ' ', ' ', ' ', '2', '.', '4', '0'])
      ∧ fixedText (stationAfter (exec (.deleteRow 0 2) (inFrame (orderPart ⟨13, 2⟩)))) 4
        = some (chars [' ', ' ', ' ', ' ', ' ', '7', '1', '.', '1', '2']) := by decide +kernel

/-- R60: texts that are and are not entries of an unsigned field of width 5 and scale 2 (d of 4), and of a signed one. -/
theorem test_numeric_entries :
    let f : NumForm := { width := 5, signed := false, scale := 2 }
    let g : NumForm := { width := 6, signed := true, scale := 2 }
    parseEntry f (chars ['1', '2', '.', '5']) = some (some 1250)
      ∧ parseEntry f (chars [' ', '.', '5', ' ']) = some (some 50) ∧ parseEntry f (chars [' ', ' ']) = some none
      ∧ parseEntry f (chars ['1', '2', '3']) = none ∧ parseEntry f (chars ['1', '.', '2', '3', '4']) = none
      ∧ parseEntry f (chars ['.']) = none ∧ parseEntry f (chars ['-', '1']) = none
      ∧ parseEntry g (chars ['-', '1', '.']) = some (some (-100)) ∧ parseEntry g (chars ['-', ' ', '1']) = none := by
  decide +kernel

/-- 8.9: the units of QTY, TOTWT and the message line need 12, 17 and 87 octets, an occupied slot 95. -/
theorem test_unit_sizes :
    let size (u : PaintUnit) := ordersSize (unitOrders (orderStation ⟨9, 44⟩) orderVersion u)
    size (.band 1 2) = 12 ∧ size (.field 4) = 17 ∧ size .message = 87
      ∧ ((List.range 5).map (fun j => size (.band 1 j))).sum = 95 := by decide +kernel

/-- R186: a DONE cut after its header and no more: the payload octet goes as FFh, and the check is wrong. -/
theorem test_cut_frame :
    (cutFrame (frameOctets 0 0x40 [0x09]) 6).take 7 = [0xA5, 0x3C, 0x00, 0x40, 0x00, 0x01, 0xFF]
      ∧ (cutFrame (frameOctets 0 0x40 [0x09]) 6).drop 7
        = encodeWord (~~~(crc16 [0x00, 0x40, 0x00, 0x01, 0xFF])) := by decide +kernel

/-- R179, R187: ATTACH STATION 1 without a window, by its frame. -/
theorem test_attach_by_frame :
    let f : TrunkFrame :=
      { address := 0, kind := 6, length := 2, payload := [1, 0], check := crc16 [0, 6, 0, 2, 1, 0] }
    (stationAfter (exec (.frameRefused f) (inFrame State.reset))).map (fun st => (st.state, st.link.map LoopRecord.window))
      = some (.blank, some 2) := by decide +kernel

/-- R164: RUNNING with no station attached, ATTACH STATION 5 and then 2: the next visit is to station 5. -/
theorem test_attached_station_is_visited_first :
    (match exec (.attachStation 5 0) { State.reset with loop := { Loop.stoppedDefault with mode := .running } } with
      | .next t => match exec (.attachStation 2 0) t with
        | .next u => match exec .visitStart u with
          | .next w => w.loop.visit.map (fun x => x.station.val + 1)
          | _ => none
        | _ => none
      | _ => none) = some 5 := by decide +kernel

/-- R190, 11.2: the STATION STATUS of a DETACHED station: its state and 14 zero octets. -/
theorem test_detached_status_octets :
    inboundOctets (State.reset.stationStatus 3) [] = (0x43, List.replicate 15 0) := by decide +kernel

/-- R108: LWT of row 1 goes from VALID to HELD with its text: an entry, but none where its own attribute is REVERSE. -/
theorem test_status_change_is_painted :
    let w (a : Nat) : Work :=
      { v := { orderVersion with rowDefs := orderRows.map (fun d => { d with attr := a }) }, st := orderStation ⟨9, 44⟩
        c := orderForm, freeRows := 0, snapshot := false, poolLow := false, latched := none }
    let held (a : Nat) : List Dirty := match orderForm.inst? (.row 1 4) with
      | some x => ((w a).putInst (.row 1 4) { x with status := .held }).st.paint.dirty
      | none => [.band]
    held 0 = [.slot 1 4] ∧ held 3 = [] := by decide +kernel

/-- R95: ROW INSERT over row 1 while its QTY is edited from 12 to 2 and its text ends in slot 1: the rows move first, so
the PRODUCT of the edited row is painted in slot 2, or with the BAND. -/
theorem test_row_insert_computes_last :
    let c := { orderForm with cursor := ⟨9, 44⟩, editing := true }.modInst (.row 1 2) (fun x => { x with
      text := chars ['2', ' ', ' ', ' ', ' '], modified := true })
    let st := some ((State.deliverKey 0 (withForm { orderStation ⟨9, 44⟩ with ctx := some c }) 0x9A).station 0)
    rowText st 2 4 = some (chars [' ', ' ', ' ', ' ', ' ', '4', '.', '7', '5'])
      ∧ rowText st 1 4 = some (spaces 9)
      ∧ fixedText st 4 = some (chars [' ', ' ', ' ', ' ', ' ', '4', '8', '.', '2', '5']) := by decide +kernel

/-- R37, R127: UNLOCK of a HELD station whose queue holds 9, CLEAR and 6, the cursor in ITEM of the first row: 9 is typed,
CLEAR latches, and 6 stays queued. -/
theorem test_unlock_drains_to_the_latch :
    let s := taking { orderIn .held .system with
      ctx := some { orderForm with cursor := ⟨9, 2⟩ }, typeAhead := [0x39, 0x81, 0x36] }
    ∃ t, exec (.unlock 0) s = .next t ∧ t.attention[0] = some 0x81 ∧ (t.station 0).typeAhead = [0x36]
      ∧ ((t.station 0).ctx.bind (fun c => c.inst? (.row 1 0))).map (fun x => x.text.head?) = some (some 0x39)
      ∧ t.waiting = [.attention 0, .general 0] :=
  ⟨_, rfl, by decide +kernel⟩

/-- R123: a CURSOR entry to ORDREF while the quantity of the first row is being typed: the typed digits are dropped. -/
theorem test_cursor_abandons_edit :
    let typed := { orderForm with cursor := ⟨9, 44⟩, editing := true }.modInst (.row 1 2) (fun x =>
      { x with text := chars ['9', '9', ' ', ' ', ' '], modified := true })
    let s := taking { orderStation ⟨9, 44⟩ with ctx := some typed }
    let qty (c : Context) := (c.inst? (.row 1 2)).map (fun x => (x.text, x.value, x.modified))
    ∃ t, exec (.cursor 0 ⟨3, 0⟩) s = .next t
      ∧ (t.station 0).ctx.map (fun c => (c.editing, qty c))
        = some (false, (qty orderForm).map (fun x => (x.1, x.2.1, true))) :=
  ⟨_, rfl, by decide +kernel⟩

/-! ### Witnesses: start-up and the receiver -/

/-- The part while the reset input is asserted. -/
def inReset : State :=
  { State.reset with resetInput := true, raw := RawEvents.empty, event := .empty, waiting := [] }

theorem detached_start_up (s : State) (h : s = { State.reset with
    resetInput := s.resetInput, raw := s.raw, event := s.event, waiting := s.waiting, tx := s.tx }) :
    InStartUp s := by
  rw [h]
  exact { receiver := rfl, generalSlots := by simp [State.reset], attentionSlots := by simp [State.reset]
          staging := rfl, table := by simp [State.reset]
          numbers := by intro id; simp [State.reset, State.nextVersionOf]
          rowPool := rfl, stations := by intro i; simp [State.reset, State.station], loop := rfl }

theorem witness_StartUpOfEveryBlock :
    (inReset.resetInput = true ∧ InStartUp inReset ∧ NothingRaised inReset ∧ isFrame .loopStop = true)
      ∧ (StartedWaits State.reset ∧ State.reset.tx = .idle)
      ∧ (StartedWaits { State.reset with tx := .completing [0xFF] }) :=
  ⟨⟨rfl, detached_start_up _ rfl, ⟨rfl, rfl, rfl, rfl⟩, rfl⟩, ⟨⟨rfl, rfl, rfl, rfl⟩, rfl⟩, rfl, rfl, rfl, rfl⟩

theorem witness_ResetsExactly :
    (({ State.reset with tx := .sending .event [0xA5] } : State).tx = .sending .event [0xA5] ∧ [(0xA5 : Byte)] ≠ [])
      ∧ (∀ slot octets, State.reset.tx ≠ .sending slot octets)
      ∧ (inReset.resetInput = true ∧ NothingRaised inReset) ∧ State.reset.resetInput = false :=
  ⟨⟨rfl, nofun⟩, nofun, ⟨rfl, rfl, rfl, rfl, rfl⟩, rfl⟩

/-- In a frame, with an ATTENTION record in transmission or nothing, STARTED enabled or not. -/
theorem witness_ResetComposerKeepsLiveVersions :
    (Receiving (inFrame (orderPart ⟨9, 44⟩)) 0 ∧ (∀ slot octets, (inFrame (orderPart ⟨9, 44⟩)).tx ≠ .sending slot octets)
        ∧ (inFrame (orderPart ⟨9, 44⟩)).enable.getLsbD 0 = true)
      ∧ (Receiving { inFrame (orderPart ⟨9, 44⟩) with tx := .sending (.attention 2) [0xA5], enable := 0 } 0
        ∧ [(0xA5 : Byte)] ≠ []) :=
  ⟨⟨⟨rfl, rfl⟩, nofun, by decide +kernel⟩, ⟨rfl, rfl⟩, nofun⟩

/-- No general slot is free. -/
def busy : State := { State.reset with general := Vector.replicate 24 .reserved }

theorem witness_ReservationAtFirstOctet :
    (State.reset.rx = .hunting ∧ State.reset.trunkReady = true)
      ∧ (({ State.reset with general := busy.general.set 23 .free } : State).trunkReady = true)
      ∧ (busy.rx = .hunting ∧ busy.resetInput = false ∧ busy.trunkReady = false)
      ∧ Receiving (inFrame State.reset) 0 ∧ Discarding { busy with rx := .frame none }
      ∧ isFrame (.lock 3) = true := by
  refine ⟨by decide +kernel, by decide +kernel, by decide +kernel, ⟨rfl, rfl⟩, ⟨rfl, rfl⟩, rfl⟩

/-- Frames that fail each check: a wrong check, a length of 4,097, address 17, an unknown kind at the Control Unit and
at a station, a DETACHED station, a full queue; and a frame that passes them. -/
theorem witness_FrameChecksInOrder :
    let ready := inFrame (partWith onlineStation)
    let q : Queued := { slot := 3, record := .lock }
    let full := inFrame (partWith { onlineStation with records := [q, q, q, q] })
    let bad : TrunkFrame := { address := 0, kind := 3, length := 0, payload := [], check := 0 }
    let long : TrunkFrame := { address := 0, kind := 3, length := 4097, payload := [], check := 0 }
    (Receiving ready 0 ∧ Receiving full 0)
      ∧ (bad.check ≠ crc16 (checkedOctets bad.address bad.kind bad.payload) ∧ ¬long.length.toNat ≤ 4096)
      ∧ (frameSound (frameOf 17 3 []) = true ∧ 16 < (frameOf 17 3 []).address.toNat)
      ∧ (frameSound (frameOf 0 0x23 []) = true ∧ decodeControl 0x23 [] = none)
      ∧ (frameSound (frameOf 0 0x0E []) = true ∧ decodeControl 0x0E [] = some .resetComposer)
      ∧ (frameSound (frameOf 16 0x0E []) = true ∧ decodeStation 0x0E [] = none)
      ∧ (frameSound (frameOf 16 0x23 []) = true ∧ decodeStation 0x23 [] = some .lock
        ∧ (ready.station 15).state = .detached)
      ∧ ((full.station 0).state ≠ .detached ∧ 4 ≤ (full.station 0).records.length) := by
  refine ⟨⟨⟨rfl, rfl⟩, rfl, rfl⟩, ?_⟩
  decide +kernel

theorem witness_RecordJoinsOrIsTaken :
    (Receiving (inFrame (partWith onlineStation)) 0
        ∧ ((inFrame (partWith onlineStation)).station 0).state ≠ .detached)
      ∧ (let s := inFrame (partWith { onlineStation with
            state := .releasing, lock := .system, records := [⟨3, .lock⟩, ⟨4, .lock⟩, ⟨5, .lock⟩] })
         (s.station 0).state = .releasing ∧ (s.station 0).records.length < 4)
      ∧ ({ inFrame (partWith onlineStation) with attention := State.reset.attention.set 0 (some 0x80) } : State).frozen 0
        = true := by
  refine ⟨⟨⟨rfl, rfl⟩, ?_⟩, ?_⟩ <;> decide +kernel

theorem witness_RecordsAndFramesRoundTrip :
    ((StationRecord.compose orderRecord).wf = true
        ∧ (ControlRecord.loadPart (orderRows.map LoadEntry.field)).wf = true
        ∧ (ControlRecord.loadPart [.field { plainField 1 2 1 4 with
            kind := .numeric { unsigned 0 with min := some (-2 ^ 47), max := some (2 ^ 47 - 1) } 255 }]).wf = true)
      ∧ ((StationRecord.note true (List.replicate 255 0x20)).wf = true
        ∧ (ControlRecord.attachStation 255 255).wf = true) := by
  decide +kernel

/-! ### Witnesses: the transmitter -/

/-- The part with one record waiting in slot 7, and with it in transmission. -/
def placed (r : Inbound) (s : State) : State :=
  { s with general := s.general.set 7 (.occupied 1 r), waiting := [.general 7] }

def sending (n : SlotName) (s : State) : State := { s with tx := .sending n [0xA5, 0x3C], waiting := [] }

theorem witness_TransmitterSendsRecords :
    (State.reset.tx = .idle ∧ State.reset.waiting = [.event] ∧ State.reset.event = .waiting)
      ∧ (let s := placed (.done 9) (partWith onlineStation)
         s.tx = .idle ∧ s.waiting = [.general 7] ∧ s.general[7] = .occupied 1 (.done 9))
      ∧ (let s : State := { partWith onlineStation with attention := State.reset.attention.set 15 (some 0x81)
                                                        waiting := [.attention 15] }
         s.tx = .idle ∧ s.waiting = [.attention 15] ∧ s.attention[15] = some 0x81 ∧ (s.station 15).ctx = none)
      ∧ (let s := sending (.general 7) (placed .composed State.reset)
         s.tx = .sending (.general 7) [0xA5, 0x3C] ∧ ∀ address, s.general[7] ≠ .occupied address .snapshot)
      ∧ (sending (.attention 0) (partWith onlineStation)).tx = .sending (.attention 0) [0xA5, 0x3C]
        ∧ ((sending (.attention 0) (partWith onlineStation)).station 0).records = []
      ∧ (({ sending .event State.reset with event := .sending } : State).event = .sending)
      ∧ (({ sending .event State.reset with event := .sendingOwed } : State).event = .sendingOwed)
      ∧ ({ State.reset with tx := .completing [] } : State).tx = .completing [] := by
  refine ⟨⟨rfl, rfl, rfl⟩, by decide +kernel, by decide +kernel, ⟨rfl, ?_⟩, rfl, by decide +kernel, rfl, rfl, rfl⟩
  intro address h
  simp [sending, placed] at h

/-- A record of each kind in slot 7; ATTENTION of ENTER and of CLEAR, and SNAPSHOT, at a station with a form. -/
theorem witness_InboundPayloadsAreLaidOut :
    (let e : ExceptionRec := { reason := .limit, target := some (16, 0x27), step := some 4, index := some 65535 }
     [Inbound.loaded 12 255 none, .loaded 250 0 (some 255), .composed, .exception e, .status State.reset.status,
       State.reset.stationStatus 0, (orderPart ⟨9, 44⟩).stationStatus 0].all (fun r =>
         (placed r State.reset).general[7] == .occupied 1 r) = true)
      ∧ (((orderPart ⟨9, 44⟩).station 0).ctx = some { orderForm with cursor := ⟨9, 44⟩ }
        ∧ (orderPart ⟨9, 44⟩).versionAt orderForm.entry = orderVersion)
      ∧ (let s (key : Byte) : State := { orderPart ⟨9, 44⟩ with attention := State.reset.attention.set 0 (some key) }
         (s 0x80).attention[0] = some 0x80 ∧ (s 0x81).attention[0] = some 0x81)
      ∧ (placed .snapshot (orderPart ⟨9, 44⟩)).general[7] = .occupied 1 .snapshot := by
  refine ⟨by decide +kernel, ⟨by decide +kernel, by decide +kernel⟩, by decide +kernel, by decide +kernel⟩

theorem witness_SnapshotFreezesUntilSent_ends :
    (let s := sending (.general 7) (placed .snapshot (withForm (orderIn .entry .snapshot)))
     s.tx = .sending (.general 7) [0xA5, 0x3C] ∧ s.general[7] = .occupied 1 .snapshot
       ∧ (∀ h : GenId, h ≠ 7 → s.general[h] ≠ .occupied 1 .snapshot)
       ∧ (s.station 0).state = .entry ∧ (s.station 0).lock = .snapshot ∧ (s.station 0).ctx.isSome = true
       ∧ (s.station 0).typeAhead = [] ∧ (s.station 0).overrun = false ∧ (s.station 0).records = [])
      ∧ (let s := sending (.general 7) (placed .snapshot (withForm { orderIn .entry .snapshot with
           typeAhead := List.replicate 32 0x35, overrun := true }))
         s.tx = .sending (.general 7) [0xA5, 0x3C] ∧ s.general[7] = .occupied 1 .snapshot
           ∧ (s.station 0).overrun = true ∧ (s.station 0).records = [])
      ∧ (let s := sending (.attention 0) (withForm { orderIn .attention .system with records := [⟨3, .lock⟩] })
         s.tx = .sending (.attention 0) [0xA5, 0x3C] ∧ (s.station 0).records = [⟨3, .lock⟩]
           ∧ (s.station 0).state ≠ .releasing ∧ s.snapshotSlot 0 = none) := by
  decide +kernel

/-- A READ in ENTRY under lock NONE and under OPERATOR ERROR, and without a form; the ends of both freezes. -/
theorem witness_SnapshotFreezesUntilSent :
    ((Receiving (inEntry ⟨9, 44⟩) 0 ∧ Ready (inEntry ⟨9, 44⟩) 0 ∧ ((inEntry ⟨9, 44⟩).station 0).ctx.isSome = true
        ∧ ((inEntry ⟨9, 44⟩).station 0).state = .entry ∧ ((inEntry ⟨9, 44⟩).station 0).lock = .none)
      ∧ (let s := taking (orderIn .entry (.operatorError .range))
         Receiving s 0 ∧ Ready s 0 ∧ (s.station 0).ctx.isSome = true
           ∧ ¬((s.station 0).state = .entry ∧ (s.station 0).lock = .none))
      ∧ (Receiving (inFrame (partWith onlineStation)) 0 ∧ Ready (inFrame (partWith onlineStation)) 0))
      ∧ (let s := sending (.general 7) (placed .snapshot (withForm (orderIn .entry .snapshot)))
         s.tx = .sending (.general 7) [0xA5, 0x3C] ∧ s.general[7] = .occupied 1 .snapshot) := by
  simp only [Receiving, Ready]; decide +kernel

/-- The cut before the first octet, within the header, and before the last octet of the check. -/
theorem witness_CutFrameIsCompletedWrong :
    let whole := frameOctets 1 0x51 [0x80, 0x00]
    ([0x80, 0x00] : List Byte).length ≤ 16384 ∧ whole.length = 10 ∧ 0 < whole.length ∧ 5 < whole.length
      ∧ 8 + 2 ≤ whole.length ∧ 9 < whole.length ∧ (6 ≤ 7 ∧ 6 ≤ 7 ∧ 7 + 2 < whole.length) := by decide +kernel

/-! ### Witnesses: the Control Unit -/

theorem witness_AttachStationMakesBlank :
    Receiving (inFrame State.reset) 0 ∧ (¬(1 ≤ 0 ∧ 0 ≤ 16) ∧ ¬(1 ≤ 17 ∧ 17 ≤ 16) ∧ 7 < 8)
      ∧ (16 = (15 : StationId).val + 1 ∧ 7 ≤ 7 ∧ ((inFrame State.reset).station 15).state = .detached)
      ∧ Receiving (inFrame (partWith onlineStation)) 0
      ∧ ((inFrame (partWith onlineStation)).station 0).state ≠ .detached
      ∧ (let s := looping .running none (inFrame State.reset)
         Receiving s 0 ∧ s.loop.mode = .running ∧ (∀ j, (s.station j).state = .detached)
           ∧ ∃ t : State, exec (.attachStation 16 7) s = .next t ∧ (t.station 15).state ≠ .detached) := by
  refine ⟨⟨rfl, rfl⟩, by decide, by decide +kernel, ⟨rfl, rfl⟩, by decide +kernel, ⟨rfl, rfl⟩, rfl, by decide +kernel, _, rfl,
    by decide +kernel⟩

/-- A station with a report pending in slot 1, a SNAPSHOT in transmission from slot 7 and a record queued in slot 3. -/
theorem witness_DetachStationAnswersInOrder :
    let s := inFrame (sending (.general 7) (placed .snapshot (withForm
      { orderIn .composing .system with reportSlot := some 1, records := [⟨3, .lock⟩] })))
    Receiving s 0 ∧ (s.station 0).state ≠ .detached ∧ s.loop.pendingStop = none
      ∧ detachedSlots s 0 = [1, 7, 3] ∧ (detachedSlots s 0 ++ [0]).Nodup ∧ (s.station 15).state = .detached
      ∧ ((visiting .poll false s).loop.visit.map Visit.station = some 0)
      ∧ (s.tx = .sending (.general 7) [0xA5, 0x3C] ∧ s.snapshotSlot 0 = some 7 ∧ SlotName.general 7 ∉ s.waiting
        ∧ ([0xA5, 0x3C] : List Byte) ≠ [])
      ∧ (let w : State := { inFrame (withForm (orderIn .attention .system)) with
            attention := State.reset.attention.set 0 (some 0x80), waiting := [.event, .attention 0] }
         Receiving w 0 ∧ w.tx = .idle ∧ SlotName.attention 0 ∈ w.waiting ∧ w.attention[0].isSome = true
           ∧ (detachedSlots w 0 ++ [0]).Nodup ∧ (sending (.attention 0) w).tx = .sending (.attention 0) [0xA5, 0x3C])
      ∧ (let r := inFrame (partWith { onlineStation with state := .releasing, lock := .system, releaseSlot := some 5 })
         Receiving r 0 ∧ (r.station 0).releaseSlot = some 5 ∧ detachedSlots r 0 = [5])
      ∧ ((s.station 0).ctx.map Context.entry = some 0 ∧ s.table[(0 : EntryId)] = some orderVersion
        ∧ 1 ≤ orderVersion.useCount ∧ orderVersion.status = .live) := by
  refine ⟨⟨rfl, rfl⟩, ?_⟩
  simp only [Receiving]
  and_intros <;> decide +kernel

theorem witness_QueriesReportState :
    (Receiving (inFrame (orderPart ⟨9, 44⟩)) 0 ∧ ((inFrame (orderPart ⟨9, 44⟩)).station 15).link = none)
      ∧ ((inFrame (orderPart ⟨9, 44⟩)).station 0).link = onlineStation.link ∧ ¬(1 ≤ 0 ∧ 0 ≤ 16) := by
  refine ⟨⟨⟨rfl, rfl⟩, ?_⟩, ?_⟩ <;> decide +kernel

/-- POOL LOW raised and not enabled, and then enabled; the same when it is enabled already. -/
theorem witness_EventSetsAndNotices :
    (let s : State := { inFrame State.reset with raw := RawEvents.empty.raise .poolLow, enable := 0 }
     Receiving s 0 ∧ EventLaw s ∧ s.raw.has .poolLow = true ∧ (0x0080#16).getLsbD Event.poolLow.kind.bit = true
       ∧ s.enable.getLsbD Event.poolLow.kind.bit = false)
      ∧ (let s : State := { inFrame State.reset with raw := RawEvents.empty, enable := 0x01FF#16 }
         Receiving s 0 ∧ EventLaw s ∧ ∀ e : Event, s.raw.has e = true → s.enable.getLsbD e.kind.bit = true)
      ∧ (EventLaw State.reset ∧ State.reset.enable.getLsbD Event.started.kind.bit = true) := by
  refine ⟨⟨⟨rfl, rfl⟩, ⟨by decide, by decide⟩, by decide, by decide, by decide⟩,
    ⟨⟨rfl, rfl⟩, ⟨by decide, by decide⟩, ?_⟩, ⟨by decide, by decide⟩, by decide⟩
  intro e h
  cases e <;> simp_all [RawEvents.has, RawEvents.empty]

/-! ### Witnesses: the Template Store -/

/-- The laws of the store hold of a part with one version and at most the form of station 1 on it. -/
theorem stored_store (v : TemplateVersion) (x : Option Staging) (st : Station)
    (hf : st.ctx.isSome = true → holdsForm st.state = true) (he : ∀ c, st.ctx = some c → c.entry = 0)
    (hu : v.useCount = if st.ctx.isSome then 1 else 0) (hr : v.status = .retired → v.useCount ≠ 0)
    (hx : ∀ y, x = some y → y.entry ≠ 0) (s : State) (ht : s.table = (stored v x st).table)
    (hs : s.stations = (stored v x st).stations) (hg : s.staging = x) : StoreLaw s := by
  have station0 : s.station 0 = st := by simp [State.station, hs, stored]
  have stationOther : ∀ i : StationId, i ≠ 0 → s.station i = Station.detachedRecord := by
    intro i hi
    have hi' : (0 : Nat) ≠ i.val := fun h => hi (Fin.ext h.symm)
    simp [State.station, hs, stored, Vector.getElem_set_ne _ _ hi', State.reset]
  have table0 : s.table[(0 : EntryId)] = some v := by simp [ht, stored]
  have tableOther : ∀ e : EntryId, e ≠ 0 → s.table[e] = none := by
    intro e hi
    have hi' : (0 : Nat) ≠ e.val := fun h => hi (Fin.ext h.symm)
    simp [ht, stored, Vector.getElem_set_ne _ _ hi', State.reset]
  have only : ∀ (e : EntryId) w, s.table[e] = some w → e = 0 ∧ w = v := by
    intro e w h
    by_cases h0 : e = 0
    · subst h0; rw [table0] at h; exact ⟨rfl, (Option.some.inj h).symm⟩
    · rw [tableOther e h0] at h; cases h
  have held : ∀ i c, (s.station i).ctx = some c → i = 0 ∧ st.ctx = some c := by
    intro i c h
    by_cases h0 : i = 0
    · subst h0; rw [station0] at h; exact ⟨rfl, h⟩
    · rw [stationOther i h0] at h; cases h
  have uses : usesOf s 0 = if st.ctx.isSome then 1 else 0 := by
    cases hc : st.ctx with
    | none =>
      simp only [usesOf, Option.isSome_none, Bool.false_eq_true, if_false, List.length_eq_zero_iff,
        List.filter_eq_nil_iff]
      intro i _
      cases h : (s.station i).ctx with
      | none => simp
      | some c => rw [(held i c h).2] at hc; cases hc
    | some c =>
      have : usesOf s 0 = (stationIds.filter (fun i => i == 0)).length := by
        unfold usesOf
        congr 1
        apply List.filter_congr
        intro i _
        by_cases h0 : i = 0
        · subst h0; simp [station0, hc, he c hc]
        · simp [stationOther i h0, h0, Station.detachedRecord]
      rw [this]
      show _ = 1
      decide
  refine ⟨?_, ?_, ?_, ?_, ?_⟩
  · intro i h
    by_cases h0 : i = 0
    · subst h0; rw [station0] at h ⊢; exact hf h
    · rw [stationOther i h0] at h; cases h
  · intro e f w z h k _ _ _
    rw [(only e w h).1, (only f z k).1]
  · intro e w h
    obtain ⟨rfl, rfl⟩ := only e w h
    exact ⟨hu.trans uses.symm, hr⟩
  · intro i c h
    obtain ⟨_, hc⟩ := held i c h
    have : c.entry = 0 := he c hc
    simp only [this, table0, Option.isSome_some]
  · intro y h
    exact tableOther y.entry (hx y (hg ▸ h))

theorem form_store (st : Station) (h : st.ctx.isSome = true → holdsForm st.state = true)
    (k : st.ctx.map Context.entry = some 0) : StoreLaw (inFrame (withForm st)) := by
  obtain ⟨c, hc, he⟩ := Option.map_eq_some_iff.mp k
  exact stored_store orderVersion none st h (fun d hd => by rw [hc] at hd; cases hd; exact he)
    (by simp [hc, orderVersion]) (by decide) nofun _ rfl rfl rfl

theorem empty_store (st : Station) (k : st.ctx = none) : StoreLaw (inFrame (partWith st)) :=
  stored_store _ none st (by simp [k]) (by simp [k]) (by simp [k]) (by decide) nofun _ rfl rfl rfl

/-- A load of template 12, complete, reserved in entry 5. -/
def orderLoad : Staging :=
  { entry := 5
    declared := { id := 12, group := orderGroup, fixedCount := 5, rowCount := 5, literalCount := 1, literalTotal := 9 }
    fixed := orderFixed, rowDefs := orderRows, literals := [title] }

theorem order_sound : SoundTemplate orderGroup orderFixed orderRows [title] where
  ids := by decide +kernel
  fields := by
    intro d hd
    simp only [orderFixed, orderRows, List.cons_append, List.nil_append, List.mem_cons, List.not_mem_nil, or_false] at hd
    rcases hd with rfl | rfl | rfl | rfl | rfl | rfl | rfl | rfl | rfl | rfl <;>
      simp [SoundField, SoundRow, SoundKind, SoundNumber, SoundInitial, NamesRowField, plainField, unsigned, orderRows,
        InBand, orderGroup]
    rintro m (rfl | rfl) <;> decide
  runs := by simp only [InBand]; decide +kernel
  fixedOrder := by simp only [Earlier, Apart]; decide +kernel
  rowOrder := by simp only [Earlier, Apart]; decide +kernel
  runOrder := by simp
  runsApart := by simp only [Apart]; decide +kernel

/-- 1.10: the load of template 12 whose LWT names a fixed field as operand B. -/
def strayLwt : FieldDef :=
  { plainField 24 0 60 9 with prot := true, kind := .product (unsigned 2) 22 6 { overflow := 0, report := 1 } }

def strayLoad : Staging := { orderLoad with rowDefs := orderRows.take 4 ++ [strayLwt] }

theorem stray_sound_up_to : SoundUpTo strayLoad 9 where
  ids := by decide +kernel
  fields := by
    intro d hd
    simp only [strayLoad, orderLoad, orderFixed, orderRows, List.length_cons, List.length_nil, List.take_succ_cons,
      List.take_zero, List.take_nil, List.cons_append, List.nil_append, List.mem_cons, List.not_mem_nil, or_false] at hd
    rcases hd with rfl | rfl | rfl | rfl | rfl | rfl | rfl | rfl | rfl <;>
      simp [SoundField, SoundRow, SoundKind, SoundNumber, SoundInitial, NamesRowField, plainField, unsigned, strayLoad,
        orderLoad, orderRows, strayLwt, InBand, orderGroup]
    rintro m (rfl | rfl) <;> decide
  runs := by simp only [InBand]; decide +kernel
  fixedOrder := by simp only [Earlier, Apart]; decide +kernel
  rowOrder := by simp only [Earlier, Apart]; decide +kernel
  runOrder := by simp only [Earlier, Apart]; decide +kernel
  runsApart := by simp only [Apart]; decide +kernel

theorem stray_offends : ¬SoundUpTo strayLoad 10 := by
  intro h
  have k := (h.fields strayLwt (by decide +kernel)).2.2.1
  simp [SoundKind, strayLwt, NamesRowField, strayLoad, orderLoad, orderRows, plainField] at k

def loading (x : Staging) : State := inFrame { State.reset with staging := some x }

theorem witness_LoadsBeginAndEnd_begin :
    let p : LoadBegin := { orderLoad.declared with id := 250, group := { orderGroup with first := 4, visible := 20 } }
    let none0 : LoadBegin := { p with id := 1, group := { orderGroup with visible := 0 }, rowCount := 0 }
    Receiving (inFrame State.reset) 0 ∧ Receiving (loading orderLoad) 0 ∧ (loading orderLoad).staging ≠ none
      ∧ (p.group.first + p.group.visible ≤ 24 ∧ p.literalTotal ≤ 80 * p.literalCount ∧ p.rowCount ≤ 12)
      ∧ (none0.group.visible = 0 ∧ none0.rowCount = 0) ∧ ¬({ p with id := 251 } : LoadBegin).id ≤ 250
      ∧ (inFrame State.reset).table[(0 : EntryId)] = none ∧ p.fixedCount + p.rowCount ≤ (inFrame State.reset).freeDefinitions
      ∧ p.literalTotal ≤ (inFrame State.reset).freeLiterals
      ∧ ¬∃ e : EntryId, (inFrame { State.reset with table := Vector.replicate 48 (some orderVersion) }).table[e] = none := by
  refine ⟨⟨rfl, rfl⟩, ⟨rfl, rfl⟩, by decide +kernel, by decide +kernel, by decide +kernel, by decide +kernel,
    by decide +kernel, by decide +kernel, by decide +kernel, ?_⟩
  rintro ⟨e, h⟩
  simp [inFrame] at h

/-- The last field, and one too many; a run of the last free characters, and one character too many; an undecodable
part. -/
theorem witness_LoadPartAppendsOrAbandons :
    let x : Staging := { orderLoad with fixed := orderFixed.take 4, literals := [] }
    let run (n : Nat) : LoadEntry := .literal { title with text := List.replicate n 0x41 }
    Receiving (loading x) 0 ∧ (loading x).staging = some x ∧ (inFrame State.reset).staging = none
      ∧ x.fixed.length + (fieldsOf false [.field (plainField 9 21 12 40)]).length ≤ x.declared.fixedCount
      ∧ x.declared.fixedCount < orderFixed.length + (fieldsOf false [.field (plainField 9 21 12 40)]).length
      ∧ ((runsOf [run 9]).map (fun l => l.text.length)).sum ≤ x.declared.literalTotal
      ∧ x.declared.literalTotal < ((runsOf [run 10]).map (fun l => l.text.length)).sum
      ∧ frameSound (frameOf 0 2 [1, 3]) = true ∧ decodeControl 0x02 [1, 3] = none := by
  refine ⟨⟨rfl, rfl⟩, rfl, rfl, ?_⟩
  decide +kernel

/-- A load missing its last fixed, row or literal entry, a complete one that is sound, and one whose tenth entry is the
first that offends (1.10). -/
theorem witness_LoadsBeginAndEnd_end :
    let a : Staging := { orderLoad with fixed := orderFixed.take 4 }
    let b : Staging := { orderLoad with rowDefs := [] }
    let c : Staging := { orderLoad with literals := [] }
    (Receiving (loading a) 0 ∧ Receiving (inFrame State.reset) 0 ∧ (inFrame State.reset).staging = none)
      ∧ ((loading a).staging = some a ∧ a.fixed.length < a.declared.fixedCount)
      ∧ (b.declared.fixedCount ≤ b.fixed.length ∧ b.rowDefs.length < b.declared.rowCount)
      ∧ (c.declared.rowCount ≤ c.rowDefs.length ∧ c.literals.length < c.declared.literalCount)
      ∧ (Complete orderLoad ∧ SoundTemplate orderGroup orderLoad.fixed orderLoad.rowDefs orderLoad.literals)
      ∧ (Complete strayLoad ∧ SoundUpTo strayLoad 9 ∧ ¬SoundUpTo strayLoad 10
        ∧ ¬SoundTemplate orderGroup strayLoad.fixed strayLoad.rowDefs strayLoad.literals)
      ∧ strayLoad.offending = some 10 := by
  refine ⟨⟨⟨rfl, rfl⟩, ⟨rfl, rfl⟩, rfl⟩, by decide +kernel, by decide +kernel, by decide +kernel,
    ⟨by simp only [Complete]; decide +kernel, order_sound⟩,
    ⟨by simp only [Complete]; decide +kernel, stray_sound_up_to, stray_offends, ?_⟩, by decide +kernel⟩
  intro h
  have k := (h.fields strayLwt (by decide +kernel)).2.2.1
  simp [SoundKind, strayLwt, NamesRowField, strayLoad, orderLoad, orderRows, plainField] at k

/-- The loads of `witness_LoadsBeginAndEnd_begin` and `witness_LoadsBeginAndEnd_end`. -/
theorem witness_LoadsBeginAndEnd :
    (Receiving (inFrame State.reset) 0 ∧ (inFrame State.reset).staging = none)
      ∧ (Receiving (loading orderLoad) 0 ∧ (loading orderLoad).staging = some orderLoad)
      ∧ (orderLoad.declared.fixedCount ≤ orderLoad.fixed.length ∧ orderLoad.declared.rowCount ≤ orderLoad.rowDefs.length
        ∧ orderLoad.declared.literalCount ≤ orderLoad.literals.length) :=
  ⟨⟨⟨rfl, rfl⟩, rfl⟩, ⟨⟨rfl, rfl⟩, rfl⟩, by decide +kernel⟩

/-- No LIVE version beside a RETIRED one in use; a LIVE version in use; a LIVE version not in use. -/
theorem witness_LoadEndInstallsLiveVersion :
    let first := inFrame (stored { orderVersion with status := .retired } orderLoad (orderStation ⟨9, 44⟩))
    let used := inFrame (stored orderVersion orderLoad (orderStation ⟨9, 44⟩))
    let unused := inFrame (stored { orderVersion with useCount := 0 } orderLoad onlineStation)
    (Receiving first 0 ∧ StoreLaw first ∧ first.staging = some orderLoad ∧ Complete orderLoad
        ∧ SoundTemplate orderLoad.declared.group orderLoad.fixed orderLoad.rowDefs orderLoad.literals
        ∧ ∀ (e : EntryId) v, first.table[e] = some v → v.id = 12 → v.status = .retired)
      ∧ (Receiving used 0 ∧ StoreLaw used ∧ used.table[(0 : EntryId)] = some orderVersion)
      ∧ (Receiving unused 0 ∧ StoreLaw unused
        ∧ unused.table[(0 : EntryId)] = some { orderVersion with useCount := 0 }) := by
  have h : orderLoad.entry ≠ 0 := by decide
  refine ⟨⟨⟨rfl, rfl⟩, ?_, rfl, by simp only [Complete]; decide +kernel, order_sound, ?_⟩, ⟨⟨rfl, rfl⟩, ?_, ?_⟩,
    ⟨rfl, rfl⟩, ?_, ?_⟩
  · exact stored_store _ _ (orderStation ⟨9, 44⟩) (fun _ => rfl) (by rintro c ⟨⟩; decide +kernel) rfl (by simp [orderVersion])
      (by rintro y ⟨⟩; exact h) _ rfl rfl rfl
  · intro e v hv _
    by_cases h0 : e = 0
    · subst h0; simp [inFrame, stored] at hv; rw [← hv]
    · have h' : (0 : Nat) ≠ e.val := fun h => h0 (Fin.ext h.symm)
      simp [inFrame, stored, Vector.getElem_set_ne _ _ h', State.reset] at hv
  · exact stored_store _ _ (orderStation ⟨9, 44⟩) (fun _ => rfl) (by rintro c ⟨⟩; decide +kernel) rfl (by decide)
      (by rintro y ⟨⟩; exact h) _ rfl rfl rfl
  · simp [inFrame, stored]
  · exact stored_store _ _ onlineStation nofun nofun rfl (by decide) (by rintro y ⟨⟩; exact h) _ rfl rfl rfl
  · simp [inFrame, stored]

theorem witness_InstalledTemplateIsSound :
    Receiving (loading orderLoad) 0 ∧ (loading orderLoad).staging = some orderLoad
      ∧ ∃ t, exec .loadEnd (loading orderLoad) = .next t ∧ t.general[(0 : GenId)] = .occupied 0 (.loaded 12 0 none) :=
  ⟨⟨rfl, rfl⟩, rfl, _, rfl, by decide +kernel⟩

theorem witness_DropTemplateRetiresLiveVersion :
    let used := inFrame (orderPart ⟨9, 44⟩)
    let unused := inFrame (partWith onlineStation)
    (Receiving used 0 ∧ StoreLaw used ∧ used.table[(0 : EntryId)] = some orderVersion ∧ orderVersion.useCount ≠ 0)
      ∧ (Receiving unused 0 ∧ StoreLaw unused ∧ unused.table[(0 : EntryId)] = some { orderVersion with useCount := 0 })
      ∧ (∀ (e : EntryId) v, used.table[e] = some v → v.id = 250 → v.status = .retired) ∧ ¬(1 ≤ 0 ∧ 0 ≤ 250)
      ∧ ¬(1 ≤ 251 ∧ 251 ≤ 250) := by
  refine ⟨⟨⟨rfl, rfl⟩, form_store _ (fun _ => rfl) (by decide +kernel), ?_, by decide⟩,
    ⟨⟨rfl, rfl⟩, empty_store _ rfl, ?_⟩, ?_, by decide, by decide⟩
  · simp [inFrame, orderPart, withForm, stored]
  · simp [inFrame, partWith, stored]
  · intro e v hv h
    by_cases h0 : e = 0
    · subst h0; simp [inFrame, orderPart, withForm, stored] at hv; rw [← hv] at h; simp [orderVersion] at h
    · have h' : (0 : Nat) ≠ e.val := fun h => h0 (Fin.ext h.symm)
      simp [inFrame, orderPart, withForm, stored, Vector.getElem_set_ne _ _ h', State.reset] at hv

/-! ### Witnesses: the station loop -/

theorem witness_LoopStartsAndHolds_start :
    Receiving (inFrame (partWith onlineStation)) 0 ∧ (inFrame (partWith onlineStation)).loop.mode = .stopped
      ∧ (3 ≤ 3 ∧ 15 ≤ 15 ∧ 7 ≤ 7) ∧ ¬(4 ≤ 3 ∧ 16 ≤ 15 ∧ 8 ≤ 7)
      ∧ (Receiving (inFrame { partWith onlineStation with holdInput := true }) 0)
      ∧ (looping .held none (inFrame State.reset)).loop.mode ≠ .stopped :=
  ⟨⟨rfl, rfl⟩, rfl, by decide, by decide, ⟨rfl, rfl⟩, by decide⟩

/-- R175: refused STOPPED and with a stop pending; pending while a station is attached; at once HELD and with none
attached; at the end of the visit. -/
theorem witness_LoopStopTakesEffect :
    let s := inFrame (partWith onlineStation)
    let waits := { visiting .poll true s with loop := { (visiting .poll true s).loop with pendingStop := some 5 } }
    (Receiving s 0 ∧ s.loop.mode = .stopped)
      ∧ (Receiving (looping .running (some 5) s) 0 ∧ (looping .running (some 5) s).loop.pendingStop ≠ none)
      ∧ (Receiving (looping .running none s) 0 ∧ (s.station 0).state ≠ .detached)
      ∧ (Receiving (looping .held none s) 0 ∧ ∀ i, ((looping .held none s).station i).state ≠ .releasing)
      ∧ ((looping .running none (inFrame State.reset)).loop.visit = none
        ∧ ∀ i, ((looping .running none (inFrame State.reset)).station i).state = .detached)
      ∧ (waits.loop.pendingStop = some 5 ∧ Awaiting waits 0 .poll)
      ∧ (let r := { inFrame (partWith { onlineStation with state := .releasing, lock := .system, releaseSlot := some 3 }) with
            loop := { waits.loop with mode := .held, pendingStop := none, visit := none } }
         Receiving r 0 ∧ r.loop.mode = .held ∧ releasingSlots r = [3] ∧ (releasingSlots r ++ [0]).Nodup
           ∧ ∀ i, (r.station i).state = .releasing → (r.station i).records = [] ∧ (r.station i).releaseSlot ≠ none)
      ∧ (Receiving waits 0 ∧ (waits.station 0).state ≠ .detached
        ∧ (∃ x, waits.loop.visit = some x ∧ x.station = 0))
      ∧ (let b := looping .running (some 5) s
         b.loop.visit = none ∧ b.loop.pendingStop = some 5 ∧ ∀ j, j ≠ 0 → (b.station j).state = .detached) := by
  refine ⟨⟨⟨rfl, rfl⟩, rfl⟩, ⟨⟨rfl, rfl⟩, by decide +kernel⟩, ⟨⟨rfl, rfl⟩, by decide +kernel⟩, ⟨⟨rfl, rfl⟩, by decide +kernel⟩,
    ⟨rfl, by decide +kernel⟩, ⟨rfl, rfl⟩,
    ⟨⟨rfl, rfl⟩, rfl, by decide +kernel, by decide +kernel, by decide +kernel⟩,
    ⟨⟨rfl, rfl⟩, by decide +kernel, _, rfl, rfl⟩, rfl, rfl, by decide +kernel⟩

theorem witness_LoopStartsAndHolds_hold :
    let s := partWith onlineStation
    (s.loop.mode ≠ .running ∧ s.loop.mode ≠ .held)
      ∧ (let u := visiting .poll false s
         u.loop.mode = .running ∧ u.loop.pendingStop = none ∧ ∀ i, ¬paintUnsent u i)
      ∧ (let u := visiting (.paint 5 true [.clear]) false s
         u.loop.mode = .running ∧ u.loop.pendingStop = none ∧ paintUnsent u 0)
      ∧ (let u := looping .running (some 5) s
         u.loop.mode = .running ∧ u.loop.pendingStop = some 5 ∧ ∀ i, (u.station i).state ≠ .releasing)
      ∧ (looping .held none s).loop.mode = .held := by
  refine ⟨by decide +kernel, ⟨rfl, rfl, ?_⟩, ⟨rfl, rfl, 5, true, [.clear], rfl⟩, ⟨rfl, rfl, by decide +kernel⟩, rfl⟩
  rintro i ⟨n, m, o, h⟩
  simp [visiting] at h

/-- The states of `witness_LoopStartsAndHolds_start` and `witness_LoopStartsAndHolds_hold`: a STOPPED loop to start, a RUNNING one to hold, a HELD one to run. -/
theorem witness_LoopStartsAndHolds :
    (Receiving (inFrame (partWith onlineStation)) 0 ∧ (inFrame (partWith onlineStation)).loop.mode = .stopped)
      ∧ (let u := visiting (.paint 5 true [.clear]) false (partWith onlineStation)
         u.loop.mode = .running ∧ u.loop.pendingStop = none ∧ paintUnsent u 0)
      ∧ (looping .held none (partWith onlineStation)).loop.mode = .held :=
  ⟨⟨⟨rfl, rfl⟩, rfl⟩, ⟨rfl, rfl, 5, true, [.clear], rfl⟩, rfl⟩

/-- No station attached; a station ONLINE with an ALARM and room, with its window full, and OFFLINE. -/
theorem witness_VisitSendsFrame :
    let alarmed : Station := { onlineStation with paint := { Paint.clear with alarm := true } }
    let s := looping .running none (partWith alarmed)
    let full := looping .running none (partWith { alarmed with
      link := some { online := true, missCount := 0, n := 1, a := 7, restart := false, window := 2 } })
    let again := { s with loop := { s.loop with last := some 15 } }
    ((looping .running none State.reset).loop.visit = none
        ∧ ∀ i, ((looping .running none State.reset).station i).state = .detached)
      ∧ (s.loop.mode = .running ∧ s.loop.visit = none ∧ NextInOrder s 0 ∧ (s.station 0).link = onlineStation.link
        ∧ (s.station 0).paint.alarm = true)
      ∧ (NextInOrder full 0 ∧ ((1 : Fin 8) - 7).val = 2) ∧ NextInOrder again 0
      ∧ (visiting .poll false s).loop.visit = some { station := 0, frame := .poll, sent := false }
      ∧ (visiting (.paint 5 true [.alarm]) false s).loop.visit
        = some { station := 0, frame := .paint 5 true [.alarm], sent := false } := by
  refine ⟨⟨rfl, by decide +kernel⟩, ⟨rfl, rfl, ⟨by decide +kernel, fun k _ => Nat.zero_le _⟩, by decide +kernel,
    by decide +kernel⟩, ⟨⟨by decide +kernel, fun k _ => Nat.zero_le _⟩, by decide⟩, ⟨by decide +kernel, ?_⟩, rfl, rfl⟩
  exact .inr (fun k _ => ⟨Nat.le_of_lt_succ k.isLt, Nat.zero_le _⟩)

/-- Blocks 3 and 4 of 8 numbers in flight, reported rendered or not; and an OFFLINE station. -/
theorem witness_GoodAnswerIsHandled :
    let l : LoopRecord := { online := true, missCount := 2, n := 5, a := 3, restart := false, window := 2 }
    let s := visiting .poll true (partWith { onlineStation with link := some l })
    let off := visiting .poll true (partWith { onlineStation with link := some { l with online := false } })
    (Awaiting s 0 .poll ∧ s.loop.pendingStop = none ∧ (s.station 0).link = some l
        ∧ (List.replicate 12 (0x41 : Byte)).length ≤ 12 ∧ ((5 : Fin 8) - l.a).val ≤ (l.n - l.a).val
        ∧ ∀ k, (s.station 0).paint.marker = .carried k → ((5 : Fin 8) - l.a).val ≤ (k - l.a).val)
      ∧ ¬((6 : Fin 8) - l.a).val ≤ (l.n - l.a).val ∧ (4 : Fin 8) ≠ l.n
      ∧ (Awaiting off 0 .poll ∧ off.loop.pendingStop = none
        ∧ (off.station 0).link = some { l with online := false }) := by
  refine ⟨⟨rfl, rfl, by decide +kernel, by decide, by decide, by decide +kernel⟩, by decide, by decide,
    rfl, rfl, by decide +kernel⟩

/-- 9.9, visit 8: block 2 carried the marker, and R is 3. -/
theorem witness_RenderedMarkerEndsComposing :
    let l : LoopRecord := { online := true, missCount := 0, n := 3, a := 2, restart := false, window := 2 }
    let carried : Paint := { Paint.clear with marker := .carried 2 }
    let c := visiting .poll true (withForm { orderIn .composing .system with
      link := some l, paint := carried, reportSlot := some 5, unlockAtEnd := true })
    let r := visiting .poll true (partWith { onlineStation with
      state := .releasing, lock := .system, link := some l, paint := carried, releaseSlot := some 5 })
    (Awaiting c 0 .poll ∧ c.loop.pendingStop = none ∧ (c.station 0).link = some l ∧ (c.station 0).paint.marker = .carried 2
        ∧ ((2 : Fin 8) - l.a).val < ((3 : Fin 8) - l.a).val ∧ ((3 : Fin 8) - l.a).val ≤ (l.n - l.a).val
        ∧ (c.station 0).typeAhead = [] ∧ (c.station 0).overrun = false ∧ (c.station 0).records = []
        ∧ (c.station 0).state = .composing ∧ (c.station 0).ctx.isSome = true ∧ (c.station 0).reportSlot = some 5
        ∧ (c.station 0).unlockAtEnd = true ∧ c.snapshotSlot 0 = none)
      ∧ (Awaiting r 0 .poll ∧ (r.station 0).link = some l ∧ (r.station 0).paint.marker = .carried 2
        ∧ (r.station 0).state = .releasing ∧ (r.station 0).releaseSlot = some 5) := by
  refine ⟨⟨rfl, rfl, ?_⟩, rfl, ?_⟩ <;> decide +kernel

/-- An OFFLINE station; an ONLINE one below its limit, at it, and at it RELEASING. -/
theorem witness_WindowExpiryCountsMiss :
    let l : LoopRecord := { online := true, missCount := 1, n := 5, a := 4, restart := false, window := 2 }
    let at2 := visiting (.paint 4 false [.clear]) true (partWith { onlineStation with link := some l })
    let at3 := visiting .poll true (partWith { onlineStation with link := some { l with missCount := 2 } })
    let off := visiting .poll true (partWith { onlineStation with link := some { l with online := false } })
    let rel := visiting .poll true (partWith { onlineStation with
      state := .releasing, lock := .system, releaseSlot := some 5, link := some { l with missCount := 2 } })
    (Awaiting at2 0 (.paint 4 false [.clear]) ∧ at2.loop.pendingStop = none ∧ (at2.station 0).link = some l
        ∧ l.missCount + 1 < at2.loop.missLimit)
      ∧ (Awaiting at3 0 .poll ∧ (at3.station 0).link = some { l with missCount := 2 } ∧ at3.loop.missLimit ≤ 2 + 1
        ∧ (at3.station 0).state ≠ .releasing)
      ∧ (Awaiting off 0 .poll ∧ (off.station 0).link = some { l with online := false })
      ∧ (Awaiting rel 0 .poll ∧ (rel.station 0).state = .releasing ∧ (rel.station 0).releaseSlot = some 5
        ∧ (rel.station 0).records = []) := by
  refine ⟨⟨rfl, rfl, ?_⟩, ⟨rfl, ?_⟩, ⟨rfl, ?_⟩, rfl, ?_⟩ <;> decide +kernel

theorem witness_BadAnswerIsLineCheckAndMiss :
    Awaiting (visiting .poll true (partWith onlineStation)) 0 .poll
      ∧ ((visiting .poll true (partWith onlineStation)).station 0).state ≠ .entry
      ∧ (readAnswer 0 [] = none ∧ ([] : List Byte).length ≤ 12 ∧ (0 : Byte) ≠ 0x01)
      ∧ (let s := visiting .poll true (withForm (orderIn .entry (.operatorError .range)))
         Awaiting s 0 .poll ∧ (s.station 0).state = .entry ∧ (s.station 0).ctx.isSome = true
           ∧ (s.station 0).lock = .operatorError .range) := by
  refine ⟨rfl, by decide +kernel, by decide +kernel, rfl, ?_⟩
  decide +kernel

/-! ### Witnesses: station records -/

theorem build_order : ∃ built, buildContext orderVersion 0 orderRecord = .ok built := by
  have h : (match buildContext orderVersion 0 orderRecord with
      | .ok _ => true
      | .error _ => false) = true := by decide +kernel
  split at h
  · exact ⟨_, by assumption⟩
  · cases h

/-- A COMPOSE over a form still COMPOSING with its report owed, with the last free rows of the pool; one at a BLANK
station. -/
theorem witness_ComposeBuildsForm :
    let s := { taking { orderIn .composing .system with reportSlot := some 5 } with freeRows := 0 }
    let b := inFrame (partWith onlineStation)
    (Receiving s 0 ∧ Ready s 0 ∧ StoreLaw s ∧ s.table[(0 : EntryId)] = some orderVersion
        ∧ orderVersion.id = orderRecord.id ∧ orderVersion.status = .live ∧ orderRecord.rows.length ≤ orderGroup.maxRows
        ∧ orderRecord.rows.length ≤ s.freeRows + rowsHeld (s.station 0) ∧ (s.station 0).reportSlot = some 5
        ∧ ∃ built, buildContext orderVersion 0 orderRecord = .ok built)
      ∧ (Receiving b 0 ∧ Ready b 0 ∧ StoreLaw b ∧ (b.station 0).ctx = none
        ∧ ∃ built, buildContext { orderVersion with useCount := 0 } 0 orderRecord = .ok built)
      ∧ (∀ d ∈ orderFixed ++ orderRows, d.id ≠ orderRecord.cursor.id)
      ∧ (orderFixed.findIdx? (fun d => d.id == 3) = some 0 ∧ (orderVersion.fixed[0]?).isSome = true)
      ∧ (orderFixed.findIdx? (fun d => d.id == 22) = none ∧ orderRows.findIdx? (fun d => d.id == 22) = some 2
        ∧ (orderVersion.rowDefs[2]?).isSome = true ∧ 1 ≤ 3 ∧ 3 ≤ orderRecord.rows.length ∧ ¬4 ≤ orderRecord.rows.length)
      ∧ (s.station 0).ctx.map Context.entry = some 0 := by
  refine ⟨⟨⟨rfl, rfl⟩, ?_, ?_, ?_, by decide +kernel, rfl, by decide +kernel, by decide +kernel, by decide +kernel,
    build_order⟩, ⟨⟨rfl, rfl⟩, ?_, empty_store _ rfl, by decide +kernel, build_order⟩, by decide +kernel,
    by decide +kernel, by decide +kernel, by decide +kernel⟩
  · simp only [Ready]; decide +kernel
  · exact stored_store orderVersion none { orderIn .composing .system with reportSlot := some 5 } (fun _ => rfl)
      (by rintro c ⟨⟩; decide +kernel) rfl (by decide) nofun _ rfl rfl rfl
  · simp [taking, inFrame, withForm, stored]
  · simp only [Ready]; decide +kernel

/-- An id without a LIVE version; 61 rows; more rows than the pool has; a bad fixed value. -/
theorem witness_ComposeFailureLeavesBlank_steps :
    let s := inEntry ⟨9, 44⟩
    let dry := { inFrame (partWith onlineStation) with freeRows := 2 }
    (Receiving s 0 ∧ Ready s 0 ∧ StoreLaw s ∧ s.table[(0 : EntryId)] = some orderVersion
        ∧ (s.station 0).reportSlot ≠ some 0
        ∧ ∀ (e : EntryId) v, s.table[e] = some v → v.id = 250 → v.status = .retired)
      ∧ orderGroup.maxRows < (List.replicate 61 (orderRow 0 [] [])).length
      ∧ (Receiving dry 0 ∧ Ready dry 0 ∧ StoreLaw dry ∧ dry.table[(0 : EntryId)] = some { orderVersion with useCount := 0 }
        ∧ dry.freeRows + rowsHeld (dry.station 0) < orderRecord.rows.length)
      ∧ buildContext orderVersion 0 { orderRecord with fixed := [⟨99, []⟩] } = .error ⟨.field, 3, some 1⟩ := by
  refine ⟨⟨⟨rfl, rfl⟩, ?_, form_store _ (fun _ => rfl) (by decide +kernel), ?_, by decide +kernel, ?_⟩, by decide +kernel,
    ⟨⟨rfl, rfl⟩, ?_, stored_store _ none onlineStation nofun nofun rfl (by decide) nofun _ rfl rfl rfl, ?_,
      by decide +kernel⟩, rfl⟩
  · simp only [Ready]; decide +kernel
  · simp [inEntry, taking, inFrame, withForm, stored]
  · intro e v hv h
    by_cases h0 : e = 0
    · subst h0; simp [inEntry, taking, inFrame, withForm, stored] at hv; rw [← hv] at h; simp [orderVersion] at h
    · have h' : (0 : Nat) ≠ e.val := fun h => h0 (Fin.ext h.symm)
      simp [inEntry, taking, inFrame, withForm, stored, Vector.getElem_set_ne _ _ h', State.reset] at hv
  · simp only [Ready]; decide +kernel
  · simp [inFrame, partWith, stored]

theorem good_ref : GoodValue orderFixed ⟨3, chars ['P', 'O']⟩ :=
  ⟨{ plainField 3 3 60 10 with mandatoryEntry := true }, by decide +kernel, by decide +kernel, by decide +kernel⟩

theorem good_quantity : GoodValue orderRows ⟨22, chars ['1', '2']⟩ :=
  ⟨{ plainField 22 0 44 5 with kind := .numeric { unsigned 0 with min := some 1, max := some 9999 } 0 },
    by decide +kernel, by decide +kernel, by decide +kernel⟩

/-- The second fixed entry names an unknown field, a derived one, or carries a bad text; a tag is repeated; a row value
is bad; nothing is bad. -/
theorem witness_ComposeFailureLeavesBlank_entries :
    (GoodValue orderFixed ⟨3, chars ['P', 'O']⟩ ∧ orderFixed.find? (fun d => d.id == 99) = none
        ∧ (∀ d, orderFixed.find? (fun d => d.id == 10) = some d → isDerived d = true)
        ∧ (∀ d, orderFixed.find? (fun d => d.id == 6) = some d → isDerived d = false ∧ hostText d (chars ['X']) = none))
      ∧ (GoodValue orderRows ⟨22, chars ['1', '2']⟩ ∧ (([6201].filter (fun t => t != 0)).Nodup)
        ∧ (∃ r ∈ [orderRow 6201 [] []], r.tag = 6201) ∧ (∀ r ∈ [orderRow 6201 [] []], r.tag ≠ 6202))
      ∧ orderRows.find? (fun d => d.id == 99) = none
      ∧ (∀ d, orderRows.find? (fun d => d.id == 22) = some d → isDerived d = false ∧ hostText d (chars ['X']) = none)
      ∧ ((orderRecord.rows.map RowEntry.tag).filter (fun t => t != 0)).Nodup := by
  refine ⟨⟨good_ref, by decide +kernel, ?_, ?_⟩, ⟨good_quantity, by decide, by decide +kernel, by decide +kernel⟩,
    by decide +kernel, ?_, by decide +kernel⟩
  · rintro d ⟨⟩; rfl
  · rintro d ⟨⟩; exact ⟨rfl, by decide +kernel⟩
  · rintro d ⟨⟩; exact ⟨rfl, by decide +kernel⟩

/-- The failures of `witness_ComposeFailureLeavesBlank_steps` and the entries of `witness_ComposeFailureLeavesBlank_entries`. -/
theorem witness_ComposeFailureLeavesBlank :
    (Receiving (inEntry ⟨9, 44⟩) 0 ∧ Ready (inEntry ⟨9, 44⟩) 0 ∧ StoreLaw (inEntry ⟨9, 44⟩)
        ∧ (inEntry ⟨9, 44⟩).table[(0 : EntryId)] = some orderVersion)
      ∧ orderGroup.maxRows < (List.replicate 61 (orderRow 0 [] [])).length
      ∧ buildContext orderVersion 0 { orderRecord with fixed := [⟨99, []⟩] } = .error ⟨.field, 3, some 1⟩
      ∧ GoodValue orderFixed ⟨3, chars ['P', 'O']⟩ ∧ orderFixed.find? (fun d => d.id == 99) = none :=
  ⟨⟨witness_ComposeFailureLeavesBlank_steps.1.1, witness_ComposeFailureLeavesBlank_steps.1.2.1, witness_ComposeFailureLeavesBlank_steps.1.2.2.1, witness_ComposeFailureLeavesBlank_steps.1.2.2.2.1⟩, witness_ComposeFailureLeavesBlank_steps.2.1,
    witness_ComposeFailureLeavesBlank_steps.2.2.2, good_ref, by decide +kernel⟩

theorem form_taken (q : Pos) : FormTaken (inEntry q) 0 0 orderVersion { orderForm with cursor := q } := by
  refine ⟨⟨rfl, rfl⟩, ⟨?_, ?_, rfl, ?_⟩, rfl, ?_⟩
  · simp [inEntry, taking, inFrame, withForm, stored, State.station, orderStation]
  · simp [inEntry, taking, inFrame, withForm, stored, State.station, orderStation]
  · have h : (inEntry ⟨1, 1⟩).frozen 0 = false := by decide +kernel
    exact h
  · show (inEntry ⟨1, 1⟩).versionAt orderForm.entry = orderVersion
    decide +kernel

/-- Each refusal of a SET, in the fixed and the row list, and a SET that is applied: ORDREF, and ITEM of the first row. -/
theorem witness_SetWritesInstance :
    FormTaken (inEntry ⟨9, 2⟩) 0 0 orderVersion { orderForm with cursor := ⟨9, 2⟩ }
      ∧ orderVersion.fixed.findIdx? (fun d => d.id == 99) = none
      ∧ orderVersion.rowDefs.findIdx? (fun d => d.id == 99) = none
      ∧ orderVersion.fixed.findIdx? (fun d => d.id == 3) = some 0
      ∧ (orderVersion.fixed.findIdx? (fun d => d.id == 10) = some 4 ∧ (orderVersion.fixed[4]?).map isDerived = some true)
      ∧ (orderVersion.fixed.findIdx? (fun d => d.id == 6) = some 1
        ∧ (orderVersion.fixed[1]?).map (fun d => hostText d (chars ['X'])) = some none)
      ∧ ((orderVersion.fixed[0]?).map (fun d => (isDerived d, (hostText d (chars ['X'])).isSome)) = some (false, true)
        ∧ (orderForm.fixed[0]?).isSome = true)
      ∧ (orderVersion.rowDefs.findIdx? (fun d => d.id == 20) = some 0 ∧ orderForm.rows.length = 3
        ∧ ((orderVersion.rowDefs[0]?).map (fun d => (isDerived d, hostText d [])) = some (false, some (spaces 8, none)))
        ∧ ((orderForm.rows[0]?).bind (fun r => r.insts[0]?)).isSome = true)
      ∧ (orderVersion.rowDefs.findIdx? (fun d => d.id == 24) = some 4
        ∧ (orderVersion.rowDefs[4]?).map isDerived = some true)
      ∧ (orderVersion.rowDefs.findIdx? (fun d => d.id == 22) = some 2
        ∧ (orderVersion.rowDefs[2]?).map (fun d => hostText d (chars ['X'])) = some none) :=
  ⟨form_taken _, by decide +kernel⟩

/-- The positions 0, 1, 4 and 5 of a list of three rows, a full list, a tag taken, a bad value, a dry pool, and the take
that raises POOL LOW. -/
theorem witness_FillRowsJoinAndLeave_insert :
    (FormTaken (inEntry ⟨9, 44⟩) 0 0 orderVersion { orderForm with cursor := ⟨9, 44⟩ } ∧ orderForm.rows.length = 3
        ∧ ¬(1 ≤ 0 ∧ 0 ≤ 3 + 1) ∧ ¬(1 ≤ 5 ∧ 5 ≤ 3 + 1) ∧ (1 ≤ 4 ∧ 4 ≤ 3 + 1) ∧ 3 < orderGroup.maxRows
        ∧ (∃ r ∈ orderForm.rows, r.tag = some 6202) ∧ (∀ r ∈ orderForm.rows, r.tag ≠ some 65535))
      ∧ (match applyValues orderRows (orderRows.map initialInst) [⟨22, chars ['X']⟩] with
          | .error e => some e
          | .ok _ => none) = some .format
      ∧ applyValues orderRows (orderRows.map initialInst) [] = .ok (orderRows.map initialInst)
      ∧ (let full : TemplateVersion := { orderVersion with group := { orderGroup with maxRows := 3 } }
         let s := inFrame { stored full none (orderStation ⟨9, 44⟩) with freeRows := 509 }
         FormTaken s 0 0 full { orderForm with cursor := ⟨9, 44⟩ } ∧ full.group.maxRows ≤ orderForm.rows.length)
      ∧ FormTaken { inEntry ⟨9, 44⟩ with freeRows := 0 } 0 0 orderVersion { orderForm with cursor := ⟨9, 44⟩ }
      ∧ FormTaken { inEntry ⟨9, 44⟩ with freeRows := 32 } 0 0 orderVersion { orderForm with cursor := ⟨9, 44⟩ } := by
  refine ⟨⟨form_taken _, by decide +kernel⟩, by decide +kernel, rfl, ⟨⟨⟨rfl, rfl⟩, ?_, rfl, ?_⟩, by decide +kernel⟩,
    form_taken _, form_taken _⟩
  · simp only [Ready]; decide +kernel
  · decide +kernel

/-- The positions 0, 1, 3 and 4 of a list of three rows, and a deletion of the row under the cursor. -/
theorem witness_FillRowsJoinAndLeave_delete :
    FormTaken (inEntry ⟨9, 44⟩) 0 0 orderVersion { orderForm with cursor := ⟨9, 44⟩ } ∧ orderForm.rows.length = 3
      ∧ ¬(1 ≤ 0 ∧ 0 ≤ 3) ∧ ¬(1 ≤ 4 ∧ 4 ≤ 3) ∧ orderForm.editing = false
      ∧ instAt orderVersion { orderForm with cursor := ⟨9, 44⟩ } ⟨9, 44⟩ = some (.row 1 2) :=
  ⟨form_taken _, by decide +kernel⟩

/-- The rows of `witness_FillRowsJoinAndLeave_insert` and `witness_FillRowsJoinAndLeave_delete`, with no edit under way. -/
theorem witness_FillRowsJoinAndLeave :
    FormTaken (inEntry ⟨9, 44⟩) 0 0 orderVersion { orderForm with cursor := ⟨9, 44⟩ } ∧ orderForm.editing = false
      ∧ ((1 ≤ 4 ∧ 4 ≤ orderForm.rows.length + 1) ∧ orderForm.rows.length < orderGroup.maxRows ∧ 0 < (inEntry ⟨9, 44⟩).freeRows)
      ∧ (1 ≤ 3 ∧ 3 ≤ orderForm.rows.length) ∧ ¬(1 ≤ 0 ∧ 0 ≤ orderForm.rows.length) :=
  ⟨form_taken _, by decide +kernel⟩

/-- Good and bad positions and tags: 65535 and 65536, a tag of another row, the row's own tag, and none. -/
theorem witness_TagRowGivesTag :
    FormTaken (inEntry ⟨9, 44⟩) 0 0 orderVersion { orderForm with cursor := ⟨9, 44⟩ } ∧ orderForm.rows.length = 3
      ∧ orderForm.rows.map RowRec.tag = [some 6201, some 6202, some 6203]
      ∧ (1 ≤ 3 ∧ 3 ≤ 3 ∧ 65535 ≤ 65535) ∧ ¬65536 ≤ 65535 ∧ ¬1 ≤ 0 :=
  ⟨form_taken _, by decide +kernel⟩

/-- The order with the edit of an instance under way. -/
def formInEdit (q : Pos) : Context := { orderForm with cursor := q, editing := true }

theorem form_in_edit_taken (q : Pos) :
    FormTaken (taking { orderStation q with ctx := some (formInEdit q) }) 0 0 orderVersion (formInEdit q) := by
  refine ⟨⟨rfl, rfl⟩, ⟨?_, ?_, rfl, ?_⟩, rfl, (form_taken ⟨1, 1⟩).2.2.2⟩
  · simp [taking, inFrame, withForm, stored, State.station, orderStation]
  · simp [taking, inFrame, withForm, stored, State.station, orderStation]
  · have h : (inEntry ⟨1, 1⟩).frozen 0 = false := by decide +kernel
    exact h

/-- R123, at an edit of the second row under way: a row behind it leaves the cursor in its instance, a row before it, joined
or left, does not; nor does a CURSOR entry for another instance. -/
theorem witness_edit_goes_on_or_not :
    let c := formInEdit ⟨10, 44⟩
    let joined (p : Nat) : Context :=
      { c with rows := c.rows.take (p - 1) ++ initialRow orderRows none false :: c.rows.drop (p - 1) }
    let left (p : Nat) : Context := { c with rows := c.rows.eraseIdx (p - 1) }
    FormTaken (taking { orderStation ⟨10, 44⟩ with ctx := some c }) 0 0 orderVersion c ∧ c.editing = true
      ∧ instAt orderVersion c c.cursor = some (.row 2 2)
      ∧ instAt orderVersion (joined 4) c.cursor = some (.row 2 2)
      ∧ instAt orderVersion (joined 1) c.cursor ≠ some (.row 3 2)
      ∧ instAt orderVersion (left 3) c.cursor = some (.row 2 2)
      ∧ instAt orderVersion (left 1) c.cursor ≠ some (.row 1 2)
      ∧ instAt orderVersion { c with cursor := ⟨10, 44⟩ } ⟨10, 44⟩ = some (.row 2 2)
      ∧ instAt orderVersion { c with cursor := ⟨21, 12⟩ } ⟨21, 12⟩ ≠ some (.row 2 2) :=
  ⟨form_in_edit_taken _, by decide +kernel⟩

/-- A fixed reference, a row reference, and the references that fail; `witness_edit_goes_on_or_not` has the edits. -/
theorem witness_CursorMovesToField :
    FormTaken (inEntry ⟨9, 44⟩) 0 0 orderVersion { orderForm with cursor := ⟨9, 44⟩ }
      ∧ orderVersion.fixed.findIdx? (fun d => d.id == 9) = some 3 ∧ (orderVersion.fixed[3]?).isSome = true
      ∧ (orderVersion.fixed.findIdx? (fun d => d.id == 22) = none
        ∧ orderVersion.rowDefs.findIdx? (fun d => d.id == 22) = some 2 ∧ (orderVersion.rowDefs[2]?).isSome = true)
      ∧ orderForm.rows.length = 3 ∧ orderForm.editing = false :=
  ⟨form_taken _, by decide +kernel⟩

theorem witness_ModifiedFlagsAreCleared :
    (Receiving (inEntry ⟨9, 44⟩) 0 ∧ Ready (inEntry ⟨9, 44⟩) 0
        ∧ ((inEntry ⟨9, 44⟩).station 0).ctx = some { orderForm with cursor := ⟨9, 44⟩ }
        ∧ ∃ t c', exec (.recordJoinsQueue 0 (.fill [.tagRow 1 0] false false)) (inEntry ⟨9, 44⟩) = .next t
          ∧ t.general[(0 : GenId)] = .occupied 1 (.done 0x21) ∧ (t.station 0).ctx = some c')
      ∧ (Receiving (inFrame (partWith onlineStation)) 0 ∧ Ready (inFrame (partWith onlineStation)) 0
        ∧ ((inFrame (partWith onlineStation)).station 0).ctx = none)
      ∧ (let s := taking (orderIn .held .system)
         Receiving s 0 ∧ Ready s 0 ∧ (s.station 0).state = .held ∧ (s.station 0).lock = .system
           ∧ (s.station 0).typeAhead = [] ∧ (s.station 0).overrun = false) := by
  refine ⟨⟨⟨rfl, rfl⟩, (form_taken _).2.1, rfl, ?_⟩, ⟨⟨rfl, rfl⟩, ?_, by decide +kernel⟩,
    ⟨rfl, rfl⟩, ?_, by decide +kernel⟩
  · have h : ∃ t, exec (.recordJoinsQueue 0 (.fill [.tagRow 1 0] false false)) (inEntry ⟨9, 44⟩) = .next t
        ∧ t.general[(0 : GenId)] = .occupied 1 (.done 0x21) ∧ (t.station 0).ctx.isSome = true :=
      ⟨_, rfl, by decide +kernel⟩
    obtain ⟨t, h1, h2, h3⟩ := h
    obtain ⟨c, h4⟩ := Option.isSome_iff_exists.mp h3
    exact ⟨t, c, h1, h2, h4⟩
  · simp only [Ready]; decide +kernel
  · simp only [Ready]; decide +kernel

/-- A FILL of a TAG ROW that is applied, and behind it one that is applied and a DELETE ROW 4 that is refused. -/
theorem witness_FillAppliesEntriesInOrder :
    let run (l : List FillEntry) (s : State) : State := match exec (.recordJoinsQueue 0 (.fill l false false)) s with
      | .next t => t
      | _ => s
    let u := run [.tagRow 1 0] (inEntry ⟨9, 44⟩)
    let again := { u with rx := .frame (some 0), general := u.general.set 0 .reserved, waiting := u.waiting.dropLast }
    FormTaken (inEntry ⟨9, 44⟩) 0 0 orderVersion { orderForm with cursor := ⟨9, 44⟩ }
      ∧ u.general[(0 : GenId)] = .occupied 1 (.done 0x21)
      ∧ (run [.tagRow 2 6201] again).general[(0 : GenId)] = .occupied 1 (.done 0x21)
      ∧ (run [.deleteRow 4] again).general[(0 : GenId)]
        = .occupied 1 (stationException 0 0x21 .row none (some 1))
      ∧ ∃ t, exec (.unlock 0) again = .next t :=
  ⟨form_taken _, by decide +kernel, by decide +kernel, by decide +kernel, _, rfl⟩

/-- 64 characters, 65, and one outside the set; at a station with a form and without. -/
theorem witness_NoteAndLockAreTaken_note :
    (Receiving (inEntry ⟨9, 44⟩) 0 ∧ Ready (inEntry ⟨9, 44⟩) 0 ∧ Ready (inFrame (partWith onlineStation)) 0)
      ∧ ((List.replicate 64 (0x7E : Byte)).length ≤ 64 ∧ ∀ c ∈ List.replicate 64 (0x7E : Byte), c.toNat ≤ 0x7E)
      ∧ ¬(List.replicate 65 (0x20 : Byte)).length ≤ 64 ∧ ¬(0x20 ≤ (0x1F : Byte).toNat) := by
  refine ⟨⟨⟨rfl, rfl⟩, (form_taken _).2.1, ?_⟩, by decide +kernel⟩
  simp only [Ready]; decide +kernel

/-- ENTRY under OPERATOR ERROR, COMPOSING, HELD, ATTENTION, and BLANK. -/
theorem witness_NoteAndLockAreTaken_lock :
    let e := taking (orderIn .entry (.operatorError .range))
    let c := taking (orderIn .composing .system)
    let a := taking (orderIn .attention .system)
    (Receiving e 0 ∧ Ready e 0 ∧ (e.station 0).ctx.isSome = true ∧ (e.station 0).state = .entry
        ∧ (e.station 0).lock ≠ .system)
      ∧ (Ready c 0 ∧ (c.station 0).ctx.isSome = true ∧ (c.station 0).state = .composing)
      ∧ (Ready a 0 ∧ (a.station 0).ctx.isSome = true ∧ (a.station 0).state = .attention)
      ∧ (Ready (inFrame (partWith onlineStation)) 0 ∧ ((inFrame (partWith onlineStation)).station 0).ctx = none) := by
  refine ⟨⟨⟨rfl, rfl⟩, ?_⟩, ?_⟩ <;> simp only [Ready] <;> decide +kernel

/-- A station that takes a NOTE and a LOCK, with the texts and states of `witness_NoteAndLockAreTaken_note` and `witness_NoteAndLockAreTaken_lock`. -/
theorem witness_NoteAndLockAreTaken :
    (Receiving (inEntry ⟨9, 44⟩) 0 ∧ Ready (inEntry ⟨9, 44⟩) 0)
      ∧ ((List.replicate 64 (0x7E : Byte)).length ≤ 64 ∧ ¬(List.replicate 65 (0x20 : Byte)).length ≤ 64)
      ∧ (((inEntry ⟨9, 44⟩).station 0).ctx.isSome = true ∧ ((inEntry ⟨9, 44⟩).station 0).state = .entry
        ∧ ((inEntry ⟨9, 44⟩).station 0).lock ≠ .system) :=
  ⟨⟨⟨rfl, rfl⟩, (form_taken _).2.1⟩, by decide +kernel⟩

/-- BLANK, ENTRY, COMPOSING, HELD with the queue empty, of three keystrokes and overrun, ATTENTION with a form, and without
one, with an attention key queued, none, or the queue overrun. -/
theorem witness_UnlockOpensKeyboard :
    let h := taking (orderIn .held .system)
    let o := taking { orderIn .held .system with typeAhead := List.replicate 32 0x35, overrun := true }
    let n := inFrame (partWith { onlineStation with state := .attention, lock := .system, typeAhead := [0x35] })
    let k := inFrame (partWith { onlineStation with
      state := .attention, lock := .system, typeAhead := [0x35, 0x80, 0x36] })
    (Receiving h 0 ∧ Ready h 0 ∧ (h.station 0).ctx.isSome = true ∧ (h.station 0).state = .held
        ∧ (h.station 0).lock = .system ∧ (h.station 0).overrun = false ∧ (h.station 0).typeAhead = [])
      ∧ (Receiving o 0 ∧ Ready o 0 ∧ (o.station 0).overrun = true)
      ∧ (let q := taking { orderIn .held .system with typeAhead := [0x35, 0x90, 0x80] }
         Receiving q 0 ∧ Ready q 0 ∧ (q.station 0).overrun = false ∧ (q.station 0).typeAhead = [0x35, 0x90, 0x80])
      ∧ (let x := inFrame (partWith { onlineStation with
           state := .attention, lock := .system, typeAhead := List.replicate 32 0x80, overrun := true })
         Receiving x 0 ∧ Ready x 0 ∧ (x.station 0).ctx = none ∧ (x.station 0).overrun = true)
      ∧ (Receiving n 0 ∧ Ready n 0 ∧ (n.station 0).ctx = none ∧ (n.station 0).typeAhead.find? isAttentionKey = none)
      ∧ (Receiving k 0 ∧ Ready k 0 ∧ (k.station 0).ctx = none ∧ (k.station 0).typeAhead = [0x35] ++ 0x80 :: [0x36]
        ∧ [0x35].find? isAttentionKey = none ∧ isAttentionKey 0x80 = true)
      ∧ (Ready (inFrame (partWith onlineStation)) 0 ∧ ((inFrame (partWith onlineStation)).station 0).state = .blank)
      ∧ (Ready (inEntry ⟨9, 44⟩) 0 ∧ ((inEntry ⟨9, 44⟩).station 0).state = .entry) := by
  simp only [Receiving, Ready]; and_intros <;> decide +kernel

/-- A form at an ONLINE station of a RUNNING loop, with a report owed; of a STOPPED loop; no form. -/
theorem witness_ReleaseDropsForm :
    let s := looping .running none (taking { orderIn .composing .system with reportSlot := some 5 })
    let a := inFrame (partWith { onlineStation with state := .attention, lock := .system, typeAhead := [0x35] })
    (Receiving s 0 ∧ Ready s 0 ∧ (s.station 0).reportSlot ≠ some 0 ∧ (s.station 0).ctx.isSome = true
        ∧ s.loop.mode ≠ .stopped ∧ (s.station 0).link.map LoopRecord.online = some true)
      ∧ (Receiving (inEntry ⟨9, 44⟩) 0 ∧ Ready (inEntry ⟨9, 44⟩) 0 ∧ (inEntry ⟨9, 44⟩).loop.mode = .stopped)
      ∧ (Receiving (inFrame (partWith onlineStation)) 0 ∧ Ready (inFrame (partWith onlineStation)) 0
        ∧ ((inFrame (partWith onlineStation)).station 0).state = .blank)
      ∧ (Receiving a 0 ∧ Ready a 0 ∧ (a.station 0).ctx = none ∧ (a.station 0).state = .attention
        ∧ (a.station 0).typeAhead.find? isAttentionKey = none)
      ∧ (let k := inFrame (partWith { onlineStation with
           state := .attention, lock := .system, typeAhead := [0x35, 0x80, 0x36] })
         Receiving k 0 ∧ Ready k 0 ∧ (k.station 0).overrun = false ∧ (k.station 0).typeAhead = [0x35] ++ 0x80 :: [0x36]
           ∧ [0x35].find? isAttentionKey = none ∧ isAttentionKey 0x80 = true)
      ∧ (let r := inFrame { stored { orderVersion with status := .retired } none (orderStation ⟨9, 44⟩) with freeRows := 509 }
         r.table[(0 : EntryId)] = some { orderVersion with status := .retired } ∧ orderVersion.useCount = 1) := by
  simp only [Receiving, Ready]; and_intros <;> decide +kernel

/-! ### Witnesses: keystrokes, numbers and paint -/

/-- Each state and lock that R25 names; 31 and 32 keystrokes queued. -/
theorem witness_KeystrokeDisposal :
    ((partWith Station.detachedRecord).station 0).state = .detached
      ∧ (((partWith onlineStation).station 0).state = .blank ∧ ((partWith onlineStation).station 0).lock = .none
        ∧ isAttentionKey 0x8D = true ∧ isAttentionKey 0x8E = false ∧ isAttentionKey 0x7E = false)
      ∧ (let s := withForm (orderIn .entry (.operatorError .full))
         (s.station 0).state = .entry ∧ (s.station 0).lock = .operatorError .full ∧ (s.station 0).ctx.isSome = true
           ∧ (s.station 0).typeAhead = [] ∧ (s.station 0).overrun = false)
      ∧ (let s := withForm { orderIn .held .system with typeAhead := List.replicate 31 0x35 }
         (s.station 0).state = .held ∧ (s.station 0).typeAhead.length < 32)
      ∧ (let s := withForm { orderIn .entry .snapshot with typeAhead := List.replicate 32 0x35 }
         (s.station 0).state = .entry ∧ (s.station 0).lock = .snapshot ∧ 32 ≤ (s.station 0).typeAhead.length
           ∧ (s.station 0).overrun = false)
      ∧ ((withForm { orderIn .held .system with overrun := true }).station 0).overrun = true := by
  decide +kernel

/-- The form with the cursor at `q`, as the field under it is entered. -/
def keying (q : Pos) (insertMode editing : Bool) (x : Option (InstRef × Text)) : Context :=
  let c := { orderForm with cursor := q, insertMode := insertMode, editing := editing }
  match x with
  | some (r, t) => c.modInst r (fun y => { y with text := t })
  | none => c

theorem orderForm_entry : orderForm.entry = 0 := by decide +kernel

theorem keying_entry (q : Pos) (m e : Bool) (x : Option (InstRef × Text)) : (keying q m e x).entry = 0 := by
  unfold keying
  cases x with
  | none => exact orderForm_entry
  | some x => exact (Context.modInst_entry _ _ _).trans orderForm_entry

/-- The part with a form on a version in ENTRY under lock NONE. -/
def keyedOn (v : TemplateVersion) (c : Context) : State :=
  { stored v none { onlineStation with state := .entry, ctx := some c } with freeRows := 509 }

theorem keying_on (v : TemplateVersion) (c : Context) (h : c.entry = 0) : Keying (keyedOn v c) 0 v c := by
  simp [Keying, keyedOn, stored, State.station, State.versionAt, onlineStation, Station.detachedRecord, h]

/-- What the field under the cursor at `q` is: its reference, protection and kind, and the last character it shows. -/
def fieldAt (q : Pos) (m : Bool) : Option (InstRef × Bool × FieldKind × Option Byte) :=
  (under orderVersion (keying q m false none)).map
    (fun u => (u.ref, u.field.prot, u.field.kind, u.inst.text.getLast?))

/-- No field under the cursor; ORDREF; the ALPHA field; QTY, overtyped up to its last but one column and full in insert
mode; the last columns of ITEM, which skips, and of QTY, whose exit check passes or fails. -/
theorem witness_DataKeyIsCheckedAndWritten :
    (∀ q m, Keying (keyedOn orderVersion (keying q m false none)) 0 orderVersion (keying q m false none))
      ∧ fieldAt ⟨1, 1⟩ false = none
      ∧ (fieldAt ⟨22, 60⟩ false).map (fun x => x.2.1) = some true
      ∧ fieldAt ⟨3, 60⟩ false = some (.fixed 0, false, .text, some 0x20)
      ∧ (fieldAt ⟨6, 70⟩ false = some (.fixed 2, false, .alpha, some 0x20) ∧ isAlphaChar 0x30 = false)
      ∧ (fieldAt ⟨9, 47⟩ false).map (fun x => (x.1, x.2.1, x.2.2.2)) = some (.row 1 2, false, some 0x32)
      ∧ ((fieldAt ⟨9, 47⟩ true).map (fun x => acceptsKey x.2.2.1 0x35) = some true ∧ (0x32 : Byte) ≠ 0x20 ∧ 47 + 1 < 44 + 5)
      ∧ (¬((0x30 ≤ (0x41 : Byte).toNat ∧ (0x41 : Byte).toNat ≤ 0x39) ∨ (0x41 : Byte) = 0x2E)
        ∧ (0x20 ≤ (0x20 : Byte).toNat ∧ (0x7E : Byte).toNat ≤ 0x7E))
      ∧ ((fieldAt ⟨9, 9⟩ false).map (fun x => (x.1, x.2.1)) = some (.row 1 0, false) ∧ 9 + 1 = 2 + 8)
      ∧ ((under orderVersion (keying ⟨9, 48⟩ false false none)).map (fun u =>
          [0x35, 0x2D].map (fun ch => (exitCheck u.field { u.inst with text := u.inst.text.set 4 ch } false).isOk))
        = some [true, false] ∧ 48 + 1 = 44 + 5) := by
  refine ⟨fun q m => keying_on _ _ (keying_entry ..), ?_⟩
  and_intros <;> decide +kernel

/-- The form in edit of an instance, its text just keyed. -/
def editing (q : Pos) (r : InstRef) (t : List Char) : Context :=
  { orderForm with cursor := q, editing := true }.modInst r (fun y => { y with text := chars t, modified := true })

theorem editing_entry (q : Pos) (r : InstRef) (t : List Char) : (editing q r t).entry = 0 :=
  (Context.modInst_entry _ _ _).trans orderForm_entry

/-- DISC and QTY edited to a text, the cursor at their last column. -/
def disc (t : List Char) : Context := editing ⟨6, 64⟩ (.fixed 1) t

def qty (t : List Char) : Context := editing ⟨9, 48⟩ (.row 1 2) t

/-- The number that the field under the cursor reads. -/
def read (c : Context) : Option (InstRef × Bool × Bool × Option Int) :=
  (under orderVersion c).bind (fun u =>
    (parseEntry (numForm u.field) u.inst.text).map (fun x => (u.ref, isNumeric u.field, u.field.mandatoryFill, x)))

/-- How the exit check of the field under the cursor ends: a code, or none when it passes. -/
def exitOf (v : TemplateVersion) (c : Context) (negate : Bool) : Option (Option ErrorCode) :=
  (under v c).map (fun u => match exitCheck u.field u.inst negate with
    | .error code => some code
    | .ok _ => none)

/-- DISC (REFUSE, at most 50.00) with an ill-formed text, blank, 50.00 and 50.01; QTY (CLAMP, 1 to 9999) with 0, 1, 9999
and 12000; ORDREF; CODE (MANDATORY FILL) full and not. -/
theorem witness_FieldExitChecksField :
    (∀ t, Keying (keyedOn orderVersion (disc t)) 0 orderVersion (disc t))
      ∧ (∀ t, Keying (keyedOn orderVersion (qty t)) 0 orderVersion (qty t))
      ∧ ((disc ['5', '-']).editing = true ∧ (under orderVersion (disc ['5', '-'])).isSome = true
        ∧ read (disc ['5', '-']) = none)
      ∧ read (disc [' ', ' ', ' ', ' ', ' ']) = some (.fixed 1, true, false, none)
      ∧ read (disc ['5', '0', '.', '0', '0']) = some (.fixed 1, true, false, some 5000)
      ∧ read (disc ['5', '0', '.', '0', '1']) = some (.fixed 1, true, false, some 5001)
      ∧ read (qty ['0', ' ', ' ', ' ', ' ']) = some (.row 1 2, true, false, some 0)
      ∧ read (qty ['1', ' ', ' ', ' ', ' ']) = some (.row 1 2, true, false, some 1)
      ∧ read (qty ['9', '9', '9', '9', ' ']) = some (.row 1 2, true, false, some 9999)
      ∧ read (qty ['1', '2', '0', '0', '0']) = some (.row 1 2, true, false, some 12000)
      ∧ ((under orderVersion (editing ⟨3, 62⟩ (.fixed 0) ['P', 'O'])).map (fun u => (u.field.kind, u.field.mandatoryFill))
        = some (.text, false))
      ∧ ((under orderVersion (editing ⟨6, 72⟩ (.fixed 2) ['A', 'B', ' '])).map (fun u =>
          (u.field.kind, u.field.mandatoryFill, u.inst.modified, u.inst.text.contains 0x20)) = some (.alpha, true, true, true))
      ∧ ((under orderVersion (editing ⟨6, 72⟩ (.fixed 2) ['A', 'B', 'C'])).map (fun u => u.inst.text.contains 0x20)
        = some false) := by
  refine ⟨fun t => keying_on _ _ (editing_entry ..), fun t => keying_on _ _ (editing_entry ..), ?_⟩
  and_intros <;> decide +kernel

/-- A cursor in no field, in TOTWT, at the first and the last column of ORDREF; instances protected and not. -/
theorem witness_ErasingKeysEdit :
    (∀ q m, Keying (keyedOn orderVersion (keying q m true none)) 0 orderVersion (keying q m true none))
      ∧ (fieldAt ⟨1, 1⟩ true = none ∧ (fieldAt ⟨22, 60⟩ true).map (fun x => x.2.1) = some true)
      ∧ ((fieldAt ⟨3, 60⟩ true).map (fun x => x.2.1) = some false ∧ (fieldAt ⟨3, 69⟩ true).map (fun x => x.2.1) = some false)
      ∧ (.fixed 0 ∈ allRefs orderVersion orderForm ∧ (orderVersion.defOf (.fixed 0)).map FieldDef.prot = some false
        ∧ (orderForm.inst? (.fixed 0)).isSome = true)
      ∧ (.row 3 1 ∈ allRefs orderVersion orderForm
        ∧ (orderVersion.defOf (.row 3 1)).map (fun d => (d.prot, isDerived d)) = some (true, false)
        ∧ (orderForm.inst? (.row 3 1)).isSome = true) := by
  refine ⟨fun q m => keying_on _ _ (keying_entry ..), ?_⟩
  and_intros <;> decide +kernel

/-- Template 12 with a signed field behind its others. -/
def signedVersion : TemplateVersion :=
  { orderVersion with
    fixed := orderFixed ++ [{ plainField 11 23 60 6 with
      kind := .numeric { signed := true, scale := 1, min := some (-99), max := none } 1 }] }

def signedForm (t : List Char) : Context :=
  { orderForm with
    cursor := ⟨23, 65⟩
    fixed := orderForm.fixed ++ [{ text := chars t, value := none, modified := false, status := .valid, excursion := 0 }] }

/-- FIELD MINUS in a signed field with a number whose negation passes or is out of range, and with none; DUP in the first
row, in the second, and where the row above holds no number; no field, and a protected one. -/
theorem witness_ExitingKeysMoveAsTab :
    (∀ t, Keying (keyedOn signedVersion (signedForm t)) 0 signedVersion (signedForm t))
      ∧ [[' ', ' ', ' ', '9', '.', '9'], [' ', ' ', '1', '0', '.', '0'], [' ', ' ', '-', '-', ' ', ' ']].map
          (fun t => exitOf signedVersion (signedForm t) true) = [some none, some (some .range), some (some .numeric)]
      ∧ ((under signedVersion (signedForm [' ', ' ', ' ', '9', '.', '9'])).map (fun u =>
          (u.field.prot, isNumeric u.field, (numForm u.field).signed, decide (1 + 1 ≤ (numForm u.field).digits)))
        = some (false, true, true, true))
      ∧ (∀ q m, Keying (keyedOn orderVersion (keying q m false none)) 0 orderVersion (keying q m false none))
      ∧ (fieldAt ⟨1, 1⟩ false = none ∧ (fieldAt ⟨22, 60⟩ false).map (fun x => x.2.1) = some true)
      ∧ (fieldAt ⟨3, 60⟩ false).map (fun x => x.1) = some (.fixed 0)
      ∧ (fieldAt ⟨9, 44⟩ false).map (fun x => (x.1, x.2.1)) = some (.row 1 2, false)
      ∧ ((fieldAt ⟨10, 44⟩ false).map (fun x => (x.1, x.2.1)) = some (.row 2 2, false)
        ∧ (orderForm.inst? (.row 1 2)).isSome = true)
      ∧ (let c := keying ⟨10, 44⟩ false false (some (.row 1 2, chars ['-', ' ', ' ', ' ', ' ']))
         Keying (keyedOn orderVersion c) 0 orderVersion c
           ∧ (orderVersion.defOf (.row 2 2)).bind (fun d => (c.inst? (.row 1 2)).map (fun y =>
               (exitCheck d { y with modified := true } false).isOk)) = some false) := by
  refine ⟨fun t => keying_on _ _ orderForm_entry, by decide +kernel, by decide +kernel,
    fun q m => keying_on _ _ (keying_entry ..), by decide +kernel, by decide +kernel, by decide +kernel,
    by decide +kernel, keying_on _ _ (keying_entry ..), by decide +kernel⟩

/-- Template 12 with a band of two rows. -/
def tightVersion : TemplateVersion := { orderVersion with group := { orderGroup with visible := 2 } }

/-- At the foot of the band with a row below it; at its head with a row above it; inside ORDREF; idle, and in edit of a
field that passes its exit check and of one that fails it. -/
theorem witness_TabKeysMove :
    (let c := { orderForm with cursor := ⟨10, 44⟩ }
     Keying (keyedOn tightVersion c) 0 tightVersion c ∧ c.first + 2 ≤ c.rows.length ∧ 10 + 1 = 9 + 2 ∧ c.editing = false
       ∧ (tightVersion.rowDefs.find? (fun d => !d.prot)).map FieldDef.col = some 2
       ∧ (tightVersion.rowDefs.reverse.find? (fun d => !d.prot)).map FieldDef.col = some 44)
      ∧ (let c := { orderForm with cursor := ⟨9, 2⟩, first := 2 }
         Keying (keyedOn tightVersion c) 0 tightVersion c ∧ 1 < c.first
           ∧ (under tightVersion c).map (fun u => decide (u.field.col < 2)) = some false)
      ∧ (let c := { orderForm with cursor := ⟨3, 65⟩ }
         Keying (keyedOn orderVersion c) 0 orderVersion c ∧ ¬c.first + 12 ≤ c.rows.length
           ∧ ForwardTarget orderVersion c (fun s => Pos.before ⟨3, 65⟩ s = true) (nextTab orderVersion c ⟨3, 65⟩)
           ∧ ForwardTarget orderVersion c (fun s => 3 < s.row) (nextRowTab orderVersion c ⟨3, 65⟩)
           ∧ (under orderVersion c).map (fun u => (u.field.prot, decide (u.field.col < 65))) = some (false, true)
           ∧ HomeTarget orderVersion c (homePos orderVersion c))
      ∧ (let c := { orderForm with cursor := ⟨1, 1⟩ }
         Keying (keyedOn orderVersion c) 0 orderVersion c ∧ (under orderVersion c).isSome = false
           ∧ BackwardTarget orderVersion c (previousTab orderVersion c ⟨1, 1⟩)
           ∧ previousTab orderVersion c ⟨1, 1⟩ = ⟨21, 12⟩ ∧ nextTab orderVersion c ⟨1, 1⟩ = ⟨3, 60⟩)
      ∧ (Keying (keyedOn orderVersion (disc ['5', '-'])) 0 orderVersion (disc ['5', '-'])
        ∧ exitOf orderVersion (disc ['5', '-']) false = some (some .numeric)
        ∧ exitOf orderVersion (disc ['5', '.', '0', '0', ' ']) false = some none) := by
  refine ⟨⟨keying_on _ _ orderForm_entry, by decide +kernel⟩, ⟨keying_on _ _ orderForm_entry, by decide +kernel⟩,
    ⟨keying_on _ _ orderForm_entry, by decide +kernel, nextTab_target .., nextRowTab_target .., by decide +kernel,
      homePos_target ..⟩,
    ⟨keying_on _ _ orderForm_entry, by decide +kernel, previousTab_target .., by decide +kernel⟩,
    keying_on _ _ (editing_entry ..), by decide +kernel⟩

/-- Template 12 without a band. -/
def bandless : TemplateVersion := { orderVersion with group := { orderGroup with first := 0, visible := 0 }, rowDefs := [] }

/-- The corners of the screen; a target inside the field and outside it; the cursor on the band, beside it, and no band. -/
theorem witness_ArrowAndRollKeysMove :
    (∀ q m, Keying (keyedOn orderVersion (keying q m false none)) 0 orderVersion (keying q m false none))
      ∧ (instAt orderVersion orderForm ⟨3, 61⟩ = instAt orderVersion orderForm ⟨3, 60⟩
        ∧ instAt orderVersion orderForm ⟨3, 59⟩ ≠ instAt orderVersion orderForm ⟨3, 60⟩)
      ∧ (instAt orderVersion orderForm ⟨23, 80⟩ = instAt orderVersion orderForm ⟨1, 1⟩)
      ∧ (let c := { orderForm with cursor := ⟨10, 2⟩ }
         Keying (keyedOn tightVersion c) 0 tightVersion c ∧ tightVersion.group.visible ≠ 0
           ∧ (9 ≤ c.cursor.row ∧ c.cursor.row < 9 + 2))
      ∧ (let c := { orderForm with cursor := ⟨11, 2⟩ }
         Keying (keyedOn tightVersion c) 0 tightVersion c ∧ ¬(9 ≤ c.cursor.row ∧ c.cursor.row < 9 + 2))
      ∧ (let c := { orderForm with rows := [] }
         Keying (keyedOn bandless c) 0 bandless c ∧ bandless.group.visible = 0)
      ∧ exitOf orderVersion (qty ['-', ' ', ' ', ' ', ' ']) false = some (some .numeric) := by
  refine ⟨fun q m => keying_on _ _ (keying_entry ..), by decide +kernel, by decide +kernel,
    ⟨keying_on _ _ orderForm_entry, by decide +kernel⟩, ⟨keying_on _ _ orderForm_entry, by decide +kernel⟩,
    ⟨keying_on _ _ orderForm_entry, rfl⟩, by decide +kernel⟩

/-- ROW INSERT and ROW DELETE off the band, in an occupied slot and in an empty one; without permission, room or records;
with an edit that passes or fails its check; with the deleted-tag list full. -/
theorem witness_OperatorRowsJoinAndLeave :
    (∀ q m, Keying (keyedOn orderVersion (keying q m false none)) 0 orderVersion (keying q m false none))
      ∧ (¬(9 ≤ 8 ∧ 8 < 9 + 12) ∧ ¬(9 ≤ 21 ∧ 21 < 9 + 12) ∧ (9 ≤ 20 ∧ 20 < 9 + 12))
      ∧ (orderForm.rows.length = 3 ∧ (1 ≤ 1 + (11 - 9) ∧ 1 + (11 - 9) ≤ 3) ∧ ¬1 + (12 - 9) ≤ 3)
      ∧ (3 < orderGroup.maxRows ∧ 0 < (keyedOn orderVersion orderForm).freeRows ∧ orderGroup.insertAllowed = true)
      ∧ (let full := { orderVersion with group := { orderGroup with maxRows := 3, insertAllowed := false
                                                                    deleteAllowed := false } }
         Keying (keyedOn full orderForm) 0 full orderForm ∧ full.group.maxRows ≤ orderForm.rows.length)
      ∧ Keying { keyedOn orderVersion orderForm with freeRows := 0 } 0 orderVersion orderForm
      ∧ (Keying (keyedOn orderVersion (qty ['5', ' ', ' ', ' ', ' '])) 0 orderVersion (qty ['5', ' ', ' ', ' ', ' '])
        ∧ exitOf orderVersion (qty ['5', ' ', ' ', ' ', ' ']) false = some none
        ∧ exitOf orderVersion (qty ['-', ' ', ' ', ' ', ' ']) false = some (some .numeric))
      ∧ (let c := { orderForm with cursor := ⟨9, 44⟩, deletedTags := List.range 99 }
         Keying (keyedOn orderVersion c) 0 orderVersion c ∧ 99 ≤ c.deletedTags.length
           ∧ c.rows.map (fun r => r.tag.any (fun tag => tag ∉ c.deletedTags)) = [true, true, true]) := by
  refine ⟨fun q m => keying_on _ _ (keying_entry ..), by decide, by decide +kernel, by decide +kernel,
    ⟨keying_on _ _ orderForm_entry, by decide +kernel⟩, keying_on _ _ orderForm_entry,
    ⟨keying_on _ _ (editing_entry ..), by decide +kernel⟩, keying_on _ _ orderForm_entry, by decide +kernel⟩

/-- The order with every field keyed, and template 12 with a mandatory ITEM. -/
def filled : Context := { orderForm with fixed := orderForm.fixed.map (fun x => { x with modified := true }) }

def itemised : TemplateVersion :=
  { orderVersion with rowDefs := { plainField 20 0 2 8 with mandatoryEntry := true } :: orderRows.drop 1 }

/-- CLEAR and F12; ORDREF not entered, entered, and ITEM of the first row not entered; an edit that passes its check and
one that fails it. -/
theorem witness_AttentionKeyLatches :
    (isAttentionKey 0x81 = true ∧ isAttentionKey 0x80 = true ∧ isAttentionKey 0x8D = true)
      ∧ (Keying (keyedOn orderVersion orderForm) 0 orderVersion orderForm ∧ orderForm.editing = false
        ∧ firstUnentered orderVersion orderForm = some (.fixed 0) ∧ (orderVersion.fixed[0]?).isSome = true)
      ∧ (Keying (keyedOn orderVersion filled) 0 orderVersion filled ∧ firstUnentered orderVersion filled = none)
      ∧ (Keying (keyedOn itemised filled) 0 itemised filled ∧ firstUnentered itemised filled = some (.row 1 0)
        ∧ (itemised.rowDefs[0]?).isSome = true)
      ∧ (Keying (keyedOn orderVersion (disc ['5', '-'])) 0 orderVersion (disc ['5', '-'])
        ∧ exitOf orderVersion (disc ['5', '-']) false = some (some .numeric)
        ∧ exitOf orderVersion (disc ['5', ' ', ' ', ' ', ' ']) false = some none) := by
  refine ⟨by decide, ⟨keying_on _ _ orderForm_entry, by decide +kernel⟩, ⟨keying_on _ _ orderForm_entry, by decide +kernel⟩,
    ⟨keying_on _ _ orderForm_entry, by decide +kernel⟩, keying_on _ _ (editing_entry ..), by decide +kernel⟩

/-- The smallest field of scale 4, and the largest values of a signed field. -/
theorem witness_DisplayFormIsEntryOfValue :
    let f : NumForm := { width := 6, signed := false, scale := 4 }
    let g : NumForm := { width := 7, signed := true, scale := 2 }
    (f.scale + 1 ≤ f.digits ∧ g.scale + 1 ≤ g.digits) ∧ parseEntry g (displayForm g (some (-99999))) = some (some (-99999))
      ∧ ((-99999 : Int).natAbs ≤ 10 ^ g.digits - 1 ∧ (99999 : Int).natAbs ≤ 10 ^ f.digits - 1 ∧ (0 : Int) ≤ 99999) := by
  decide +kernel

/-- Half a unit either way; a SUM without an excursion; a result in range, out of range under SATURATE and HOLD. -/
theorem witness_TallyStaysWithinLimits :
    2 * (100 * divRound 50 100 - 50).natAbs = 100 ∧ (sumAccumulator 4 [some 1, none]).noted = false
      ∧ (productAccumulator 0 0 (some 2) (some 3)).isSome = true
      ∧ (let a := sumAccumulator 0 [some 999999999999]
         a.noted = false ∧ (divRound a.value (10 ^ 4)).natAbs ≤ 10 ^ 12 - 1
           ∧ ¬(divRound a.value (10 ^ 4)).natAbs ≤ 10 ^ 5 - 1 ∧ 0 < a.value)
      ∧ (sumAccumulator 0 [some (-1)]).value < 0 := by decide +kernel

/-- A literal, a fixed field, an occupied slot and an empty one; a derived instance that is VALID and one that is not;
a definition and a run in attribute NON-DISPLAY. -/
theorem witness_PaintUnitsAreLaidOut :
    (orderVersion.literals[0]?).map LiteralRun.attr = some 0
      ∧ ((orderStation ⟨9, 44⟩).ctx = some { orderForm with cursor := ⟨9, 44⟩ } ∧ (orderVersion.fixed[0]?).isSome = true
        ∧ (orderForm.fixed[0]?).isSome = true)
      ∧ (1 + 1 = orderForm.first + 1 ∧ ((orderForm.rows[0]?).bind (fun r => r.insts[4]?)).map FieldInst.status = some .valid)
      ∧ orderForm.rows.length + 1 < orderForm.first + 4
      ∧ (fitResult { width := 5, signed := false, scale := 2 } 1 { value := 10 ^ 12, excursion := 0, noted := false }
          (initialInst (plainField 1 0 60 5))).status ≠ .valid
      ∧ ({ title with attr := 4 } : LiteralRun).attr = 4
      ∧ ((orderIn .held .system).state = .held ∧ (orderIn .entry (.operatorError .range)).lock = .operatorError .range
        ∧ (orderIn .entry .none).ctx.any (fun c => c.adjusted) = false) := by decide +kernel

/-- A station in the middle of a full repaint with a dirty list behind it, and one with a BAND entry begun. -/
theorem witness_PaintBlockIsBuiltInOrder :
    (let st := { orderStation ⟨9, 44⟩ with
        paint := { Paint.clear with resume := some (.field 1), dirty := [.field 0, .message], marker := .owed, alarm := true } }
     dirtyLaw st.paint.dirty = true ∧ PaintUnit.field 1 ∈ repaintUnits st orderVersion ∧ .band ∉ st.paint.dirty
       ∧ ∀ u ∈ dueUnits st orderVersion st.paint, unitOrders st orderVersion u ≠ [])
      ∧ (let st := { orderStation ⟨9, 44⟩ with
          paint := { Paint.clear with dirty := [.message, .band], band := some ⟨2, 3⟩, cursorPending := true } }
         dirtyLaw st.paint.dirty = true ∧ st.paint.resume = none ∧ orderVersion.rowDefs ≠ []
           ∧ orderVersion.group.visible ≠ 0 ∧ PaintUnit.band 2 3 ∈ bandUnits orderVersion { orderForm with cursor := ⟨9, 44⟩ }
           ∧ ∀ u ∈ dueUnits st orderVersion st.paint, unitOrders st orderVersion u ≠ []) := by decide +kernel

/-- A LOCK taken in ENTRY: the indicator goes from spaces to HELD. -/
theorem witness_IndicatorChangeIsPainted :
    let s : State := { inEntry ⟨9, 44⟩ with pending := [.lock 0] }
    ∃ t, step s = .next t ∧ (s.station 0).state ≠ .detached ∧ (t.station 0).state ≠ .detached
      ∧ indicator (t.station 0).state (t.station 0).lock (t.station 0).ctx
        ≠ indicator (s.station 0).state (s.station 0).lock (s.station 0).ctx :=
  ⟨_, rfl, by decide +kernel⟩

/-! ### Witnesses: the laws of the part -/

/-- The order in ENTRY, with a DELETE ROW waiting in the queue of commands. -/
def lawful : State := { inEntry ⟨9, 44⟩ with pending := [.deleteRow 0 2] }

theorem lawful_station (i : StationId) (c : Context) (h : (lawful.station i).ctx = some c) :
    c = { orderForm with cursor := ⟨9, 44⟩ } ∧ lawful.versionAt c.entry = orderVersion := by
  have other : ∀ i : StationId, i ≠ 0 → (lawful.station i).ctx = none := by decide +kernel
  by_cases h0 : i = 0
  · subst h0; cases h
    exact ⟨rfl, (form_taken ⟨9, 44⟩).2.2.2⟩
  · rw [other i h0] at h; cases h

theorem lawful_store : StoreLaw lawful :=
  stored_store orderVersion none (orderStation ⟨9, 44⟩) (fun _ => rfl) (by rintro c ⟨⟩; decide +kernel) rfl
    (by decide) nofun _ rfl rfl rfl

theorem witness_StepKeepsRowPool : RowPoolLaw lawful ∧ ∃ t, step lawful = .next t :=
  ⟨⟨lawful_store.1, by decide +kernel⟩, _, rfl⟩

theorem witness_StepKeepsTemplateStore : StoreLaw lawful ∧ ∃ t, step lawful = .next t := ⟨lawful_store, _, rfl⟩

theorem witness_StepKeepsForms : FormLaw lawful ∧ ∃ t, step lawful = .next t := by
  refine ⟨⟨⟨nofun, ?_⟩, lawful_store, ?_⟩, _, rfl⟩
  · intro e v h
    by_cases h0 : e = 0
    · subst h0
      have : v = orderVersion := by simpa [lawful, inEntry, taking, inFrame, withForm, stored] using h.symm
      subst this
      exact ⟨by decide +kernel, by decide +kernel, by decide +kernel, by decide +kernel, by decide +kernel, order_sound⟩
    · have h' : (0 : Nat) ≠ e.val := fun h => h0 (Fin.ext h.symm)
      simp [lawful, inEntry, taking, inFrame, withForm, stored, Vector.getElem_set_ne _ _ h', State.reset] at h
  · intro i c h
    obtain ⟨rfl, hv⟩ := lawful_station i c h
    rw [hv]; decide +kernel

theorem witness_StepKeepsNumbers : NumbersLaw lawful ∧ ∃ t, step lawful = .next t := by
  refine ⟨⟨witness_StepKeepsForms.1, ?_⟩, _, rfl⟩
  intro i c h
  obtain ⟨rfl, hv⟩ := lawful_station i c h
  rw [hv]; decide +kernel

/-- A paint frame in transmission, with one block of the window of two in flight. -/
theorem witness_StepKeepsPaintWindowAndQueues_window :
    let s := { visiting (.paint 0 false [.alarm]) false (partWith { onlineStation with
      link := some { online := true, missCount := 0, n := 0, a := 7, restart := false, window := 2 } }) with
        pending := [.frameTransmitted] }
    PaintWindowLaw s ∧ ∃ t, step s = .next t := by
  refine ⟨?_, _, rfl⟩
  intro i l h
  by_cases h0 : i = 0
  · subst h0; cases h
    exact ⟨by decide, by decide, by decide, fun _ => by decide⟩
  · have h' : (0 : Nat) ≠ i.val := fun h => h0 (Fin.ext h.symm)
    simp [visiting, partWith, stored, State.station, Vector.getElem_set_ne _ _ h', State.reset,
      Station.detachedRecord] at h

theorem witness_StepKeepsPaintWindowAndQueues_queues :
    (DirtyListLaw lawful ∧ QueueLaw lawful ∧ EventLaw lawful) ∧ ∃ t, step lawful = .next t := by
  refine ⟨?_, _, rfl⟩
  simp only [DirtyListLaw, QueueLaw, EventLaw]; decide +kernel

theorem witness_StepKeepsPaintWindowAndQueues :
    (∃ s t, PaintWindowLaw s ∧ step s = .next t)
      ∧ (DirtyListLaw lawful ∧ QueueLaw lawful ∧ EventLaw lawful) ∧ ∃ t, step lawful = .next t :=
  ⟨⟨_, _, witness_StepKeepsPaintWindowAndQueues_window.1, rfl⟩, witness_StepKeepsPaintWindowAndQueues_queues⟩

theorem witness_StepKeepsStationStates : StationLaw lawful ∧ ∃ t, step lawful = .next t := by
  refine ⟨?_, _, rfl⟩
  intro i
  by_cases h0 : i = 0
  · subst h0
    simp [lawful, inEntry, taking, inFrame, withForm, stored, State.station, orderStation, onlineStation, holdsForm,
      lockAdmitted, Station.detachedRecord]
  · have h' : (0 : Nat) ≠ i.val := fun h => h0 (Fin.ext h.symm)
    simp [lawful, inEntry, taking, inFrame, withForm, stored, State.station, Vector.getElem_set_ne _ _ h', State.reset,
      Station.detachedRecord, holdsForm, lockAdmitted]

end Sys2Proof.Tests
end

/-! PROOFS. Rules of the operations that the Template Store is told by: what an event leaves alone, what a table entry is
after a use is lowered or a version retired, where the LIVE version of an id stands, and how uses are counted. -/

namespace Sys2Proof.Machine

theorem getElem_set_fin {α : Type} {n : Nat} (v : Vector α n) (i j : Fin n) (x : α) :
    (v.set i x)[j] = if j = i then x else v[j] := by
  simp only [Fin.getElem_fin, Vector.getElem_set, Fin.ext_iff, eq_comm]

theorem getElem_fin_congr {α : Type} {n : Nat} (v : Vector α n) {i j : Fin n} (h : i = j) : v[i] = v[j] := by
  subst h; rfl

theorem State.station_eq_of_stations {s t : State} (h : t.stations = s.stations) (j : StationId) :
    t.station j = s.station j := by
  simp only [State.station, h]

@[simp] theorem State.setStation_versionAt (s : State) (i : StationId) (st : Station) (e : EntryId) :
    (s.setStation i st).versionAt e = s.versionAt e := rfl

theorem State.station_setStation (s : State) (i j : StationId) (st : Station) :
    (s.setStation i st).station j = if j = i then st else s.station j :=
  getElem_set_fin s.stations i j st

theorem State.versionAt_of_some {s : State} {e : EntryId} {v : TemplateVersion} (h : s.table[e] = some v) :
    s.versionAt e = v := by
  simp only [State.versionAt, h, Option.getD_some]

/-! ### Events -/

/-- An event changes the raw set, the event slot and the waiting records, and nothing else (R191, R192). -/
theorem State.placeNotice_eq (s : State) :
    s.placeNotice = { s with event := s.placeNotice.event, waiting := s.placeNotice.waiting } := by
  unfold State.placeNotice
  cases h : s.event <;> simp only

theorem State.placeNotice_waiting (s : State) :
    s.placeNotice.waiting = s.waiting ∨ s.placeNotice.waiting = s.waiting ++ [.event] := by
  unfold State.placeNotice
  cases s.event <;> simp

theorem State.updateEvents_eq (s : State) (raw : RawEvents) (enable : Mask) :
    s.updateEvents raw enable = { s with
      raw := raw, enable := enable, event := (s.updateEvents raw enable).event
      waiting := (s.updateEvents raw enable).waiting } := by
  unfold State.updateEvents
  split
  · conv_lhs => rw [State.placeNotice_eq]
  · rfl

theorem State.raise_eq (s : State) (e : Event) :
    s.raise e = { s with
      raw := s.raw.raise e, event := (s.raise e).event, waiting := (s.raise e).waiting } :=
  State.updateEvents_eq s _ _

section
variable (s : State) (e : Event)

@[simp] theorem State.raise_pending : (s.raise e).pending = s.pending := by rw [State.raise_eq]
@[simp] theorem State.raise_resetInput : (s.raise e).resetInput = s.resetInput := by rw [State.raise_eq]
@[simp] theorem State.raise_holdInput : (s.raise e).holdInput = s.holdInput := by rw [State.raise_eq]
@[simp] theorem State.raise_rx : (s.raise e).rx = s.rx := by rw [State.raise_eq]
@[simp] theorem State.raise_general : (s.raise e).general = s.general := by rw [State.raise_eq]
@[simp] theorem State.raise_attention : (s.raise e).attention = s.attention := by rw [State.raise_eq]
@[simp] theorem State.raise_tx : (s.raise e).tx = s.tx := by rw [State.raise_eq]
@[simp] theorem State.raise_cuts : (s.raise e).cuts = s.cuts := by rw [State.raise_eq]
@[simp] theorem State.raise_raw : (s.raise e).raw = s.raw.raise e := by rw [State.raise_eq]
@[simp] theorem State.raise_enable : (s.raise e).enable = s.enable := by rw [State.raise_eq]
@[simp] theorem State.raise_staging : (s.raise e).staging = s.staging := by rw [State.raise_eq]
@[simp] theorem State.raise_table : (s.raise e).table = s.table := by rw [State.raise_eq]
@[simp] theorem State.raise_nextVersion : (s.raise e).nextVersion = s.nextVersion := by rw [State.raise_eq]
@[simp] theorem State.raise_freeRows : (s.raise e).freeRows = s.freeRows := by rw [State.raise_eq]
@[simp] theorem State.raise_stations : (s.raise e).stations = s.stations := by rw [State.raise_eq]
@[simp] theorem State.raise_loop : (s.raise e).loop = s.loop := by rw [State.raise_eq]
@[simp] theorem State.raise_station (j : StationId) : (s.raise e).station j = s.station j :=
  State.station_eq_of_stations (State.raise_stations s e) j

/-- An event adds at most the EVENT NOTICE to the waiting records. -/
theorem State.raise_waiting : (s.raise e).waiting = s.waiting ∨ (s.raise e).waiting = s.waiting ++ [.event] := by
  unfold State.raise State.updateEvents
  split
  · exact State.placeNotice_waiting _
  · exact .inl rfl

theorem State.raise_waiting_filter :
    (s.raise e).waiting.filter (fun m => m != .event) = s.waiting.filter (fun m => m != .event) := by
  rcases State.raise_waiting s e with h | h <;> simp [h]

end

/-- R192: what an event makes of the event slot and the waiting records follows from these, the raw set and the enable
set alone. -/
theorem State.raise_slot_congr {s t : State} (e : Event) (hraw : t.raw = s.raw) (hen : t.enable = s.enable)
    (hev : t.event = s.event) (hw : t.waiting = s.waiting) :
    (t.raise e).event = (s.raise e).event ∧ (t.raise e).waiting = (s.raise e).waiting := by
  unfold State.raise State.updateEvents State.placeNotice
  rw [hraw, hen]
  split
  · simp only [hev]
    cases s.event <;> simp [hw]
  · exact ⟨hev, hw⟩

/-! ### The table (R19 to R21) -/

/-- R20, R21: one use less, and the version is freed when it is RETIRED and this was its last. -/
theorem State.lowerUse_eq {s : State} {e : EntryId} {v : TemplateVersion} (h : s.table[e] = some v) :
    s.lowerUse e =
      if v.status = .retired ∧ v.useCount - 1 = 0 then (s.setEntry e none).raise .templateFreed
      else s.setEntry e (some { v with useCount := v.useCount - 1 }) := by
  simp [State.lowerUse, h, State.freeIfUnused, State.setEntry]

theorem State.lowerUse_of_none {s : State} {e : EntryId} (h : s.table[e] = none) : s.lowerUse e = s := by
  simp only [State.lowerUse, h]

/-- R19, R21: a retired version is freed at once when nothing uses it. -/
theorem State.retire_eq {s : State} {e : EntryId} {v : TemplateVersion} (h : s.table[e] = some v) :
    s.retire e =
      if v.useCount = 0 then (s.setEntry e none).raise .templateFreed
      else s.setEntry e (some { v with status := .retired }) := by
  simp [State.retire, h, State.freeIfUnused, State.setEntry]

theorem State.raiseUse_eq {s : State} {e : EntryId} {v : TemplateVersion} (h : s.table[e] = some v) :
    s.raiseUse e = s.setEntry e (some { v with useCount := v.useCount + 1 }) := by
  simp only [State.raiseUse, h]

theorem State.setEntry_getElem (s : State) (e f : EntryId) (o : Option TemplateVersion) :
    (s.setEntry e o).table[f] = if f = e then o else s.table[f] :=
  getElem_set_fin s.table e f o

/-- R11: the entry found for an id holds a LIVE version of it. -/
theorem State.liveEntry_some {s : State} {id : Nat} {e : EntryId} (h : s.liveEntry id = some e) :
    ∃ v, s.table[e] = some v ∧ v.id = id ∧ v.status = .live := by
  have h' := List.find?_some h
  cases hv : s.table[e] with
  | none => simp [hv] at h'
  | some v => exact ⟨v, rfl, by simpa [hv] using h'⟩

/-- R11: no entry is found exactly when every version of the id is RETIRED. -/
theorem State.liveEntry_none {s : State} {id : Nat} :
    s.liveEntry id = none ↔
      ∀ (e : EntryId) (v : TemplateVersion), s.table[e] = some v → v.id = id → v.status = .retired := by
  simp only [State.liveEntry, List.find?_eq_none, entryIds, List.mem_finRange, forall_const]
  refine forall_congr' fun e => ?_
  cases hv : s.table[e] with
  | none => simp
  | some v => cases hst : v.status <;> simp [hst]

/-- R19: with one LIVE version of an id, it is the one found. -/
theorem State.liveEntry_of_live {s : State} (h : OneLive s) {e : EntryId} {v : TemplateVersion}
    (hv : s.table[e] = some v) (hst : v.status = .live) : s.liveEntry v.id = some e := by
  cases hf : s.liveEntry v.id with
  | none =>
    have := State.liveEntry_none.mp hf e v hv rfl
    simp [hst] at this
  | some f =>
    obtain ⟨w, hw, hid, hlive⟩ := State.liveEntry_some hf
    rw [h f e w v hw hv hlive hst hid]

/-! ### Uses -/

/-- Whether a station's form is built on the version of an entry. -/
def Station.builtOn (st : Station) (e : EntryId) : Bool := st.ctx.map Context.entry == some e

theorem usesOf_eq_countP (s : State) (e : EntryId) :
    usesOf s e = stationIds.countP (fun i => (s.station i).builtOn e) := by
  simp only [usesOf, List.countP_eq_length_filter]
  congr 2
  funext i
  cases hc : (s.station i).ctx <;> simp [Station.builtOn, hc, Bool.beq_eq_decide_eq]

theorem usesOf_congr {s t : State} (h : ∀ j, (t.station j).ctx.map Context.entry = (s.station j).ctx.map Context.entry)
    (e : EntryId) : usesOf t e = usesOf s e := by
  simp only [usesOf_eq_countP, Station.builtOn, h]

theorem usesOf_eq_zero {s : State} {e : EntryId} :
    usesOf s e = 0 ↔ ∀ i c, (s.station i).ctx = some c → c.entry ≠ e := by
  simp only [usesOf_eq_countP, List.countP_eq_zero, stationIds, List.mem_finRange, forall_const]
  refine forall_congr' fun i => ?_
  cases hc : (s.station i).ctx <;> simp [Station.builtOn, hc]

/-- Counting over a list without repetition when two tests differ at one member only. -/
theorem countP_of_differ {α : Type} [DecidableEq α] {l : List α} (hl : l.Nodup) {x : α} (hx : x ∈ l) {p q : α → Bool}
    (h : ∀ y, y ≠ x → p y = q y) (hp : p x = true) (hq : q x = false) : l.countP p = l.countP q + 1 := by
  have perm := List.perm_cons_erase hx
  have rest : (l.erase x).countP p = (l.erase x).countP q :=
    List.countP_congr fun y hy => by rw [h y (fun e => (hl.not_mem_erase) (e ▸ hy))]
  rw [perm.countP_eq p, perm.countP_eq q, List.countP_cons, List.countP_cons, rest]
  simp [hp, hq]

/-- A form more on the version of its entry. -/
theorem usesOf_form_built {s t : State} {i : StationId} {c : Context} (hother : ∀ j, j ≠ i → t.station j = s.station j)
    (hnone : (s.station i).ctx = none) (hsome : (t.station i).ctx = some c) (e : EntryId) :
    usesOf t e = usesOf s e + if e = c.entry then 1 else 0 := by
  simp only [usesOf_eq_countP]
  split
  · rename_i he
    refine countP_of_differ (List.nodup_finRange 16) (List.mem_finRange i) (fun j hj => by rw [hother j hj]) ?_ ?_
    · simp [Station.builtOn, hsome, he]
    · simp [Station.builtOn, hnone]
  · rename_i he
    rw [Nat.add_zero]
    refine List.countP_congr fun j _ => ?_
    rcases eq_or_ne j i with rfl | hj
    · simp [Station.builtOn, hsome, hnone, Ne.symm he]
    · rw [hother j hj]

end Sys2Proof.Machine

/-! PROOFS. The state of the station and the form of an act: which operations of an act change neither, and that every
operation leaves a station that holds a form in a state that holds one (R28). -/

namespace Sys2Proof.Machine

/-- A measure that every step of a fold keeps is kept by the fold. -/
theorem foldl_measure {α β γ : Type} {g : β → γ} {f : β → α → β} (h : ∀ b a, g (f b a) = g b) (l : List α) (b : β) :
    g (l.foldl f b) = g b := by
  induction l generalizing b with
  | nil => rfl
  | cons a l ih => exact (ih _).trans (h b a)

/-! ### What leaves the form alone -/

section
variable (w : Work)

@[simp] theorem Work.dirty_c (d : Dirty) : (w.dirty d).c = w.c := rfl
@[simp] theorem Work.dirty_v (d : Dirty) : (w.dirty d).v = w.v := rfl
@[simp] theorem Work.dirty_state (d : Dirty) : (w.dirty d).st.state = w.st.state := rfl

@[simp] theorem Work.noteIndicator_c (new : Work) : (w.noteIndicator new).c = new.c := by
  unfold Work.noteIndicator; split <;> rfl
@[simp] theorem Work.noteIndicator_v (new : Work) : (w.noteIndicator new).v = new.v := by
  unfold Work.noteIndicator; split <;> rfl
@[simp] theorem Work.noteIndicator_state (new : Work) : (w.noteIndicator new).st.state = new.st.state := by
  unfold Work.noteIndicator; split <;> rfl

@[simp] theorem Work.setLock_c (x : StationState) (l : Lock) : (w.setLock x l).c = w.c := Work.noteIndicator_c _ _
@[simp] theorem Work.setLock_v (x : StationState) (l : Lock) : (w.setLock x l).v = w.v := Work.noteIndicator_v _ _
@[simp] theorem Work.setLock_state (x : StationState) (l : Lock) : (w.setLock x l).st.state = x :=
  Work.noteIndicator_state _ _

@[simp] theorem Work.setAdjusted_c (b : Bool) : (w.setAdjusted b).c = { w.c with adjusted := b } :=
  Work.noteIndicator_c _ _
@[simp] theorem Work.setAdjusted_v (b : Bool) : (w.setAdjusted b).v = w.v := Work.noteIndicator_v _ _
@[simp] theorem Work.setAdjusted_state (b : Bool) : (w.setAdjusted b).st.state = w.st.state :=
  Work.noteIndicator_state _ _

@[simp] theorem Work.setInsertMode_c (b : Bool) : (w.setInsertMode b).c = { w.c with insertMode := b } :=
  Work.noteIndicator_c _ _
@[simp] theorem Work.setInsertMode_state (b : Bool) : (w.setInsertMode b).st.state = w.st.state :=
  Work.noteIndicator_state _ _

@[simp] theorem Work.setEditing_c (b : Bool) : (w.setEditing b).c = { w.c with editing := b } := rfl
@[simp] theorem Work.setEditing_v (b : Bool) : (w.setEditing b).v = w.v := rfl
@[simp] theorem Work.setEditing_state (b : Bool) : (w.setEditing b).st.state = w.st.state := rfl

@[simp] theorem Work.alarm_c : w.alarm.c = w.c := rfl
@[simp] theorem Work.alarm_state : w.alarm.st.state = w.st.state := rfl

@[simp] theorem Work.markCursor_c : w.markCursor.c = w.c := rfl
@[simp] theorem Work.markCursor_v : w.markCursor.v = w.v := rfl
@[simp] theorem Work.markCursor_state : w.markCursor.st.state = w.st.state := rfl

@[simp] theorem Work.moveCursor_c (q : Pos) : (w.moveCursor q).c = { w.c with cursor := q } := by
  unfold Work.moveCursor
  split
  · rename_i h; rw [h]
  · rfl
@[simp] theorem Work.moveCursor_v (q : Pos) : (w.moveCursor q).v = w.v := (Work.moveCursor_keeps w q).version
@[simp] theorem Work.moveCursor_state (q : Pos) : (w.moveCursor q).st.state = w.st.state := by
  unfold Work.moveCursor; split <;> rfl

@[simp] theorem Work.operatorError_c (code : ErrorCode) : (w.operatorError code).c = w.c := Work.setLock_c _ _ _
@[simp] theorem Work.operatorError_state (code : ErrorCode) : (w.operatorError code).st.state = w.st.state :=
  Work.setLock_state _ _ _

@[simp] theorem Work.dirtyInst_c (r : InstRef) : (w.dirtyInst r).c = w.c := by
  unfold Work.dirtyInst; repeat' split
  all_goals rfl
@[simp] theorem Work.dirtyInst_state (r : InstRef) : (w.dirtyInst r).st.state = w.st.state := by
  unfold Work.dirtyInst; repeat' split
  all_goals rfl

/-- Putting an instance changes the form in that instance alone; a reference to none changes nothing. -/
@[simp] theorem Work.putInst_c (r : InstRef) (x : FieldInst) :
    (w.putInst r x).c = if (w.c.inst? r).isSome then w.c.modInst r (fun _ => x) else w.c := by
  unfold Work.putInst
  cases h : w.c.inst? r with
  | none => rfl
  | some y => simp only [Option.isSome_some, if_true]; split <;> simp
@[simp] theorem Work.putInst_v (r : InstRef) (x : FieldInst) : (w.putInst r x).v = w.v :=
  (Work.putInst_keeps w r x).version
@[simp] theorem Work.putInst_state (r : InstRef) (x : FieldInst) : (w.putInst r x).st.state = w.st.state := by
  unfold Work.putInst
  split
  · dsimp only; split <;> simp
  · rfl

@[simp] theorem Work.setFirst_c (f : Nat) : (w.setFirst f).c = { w.c with first := f } := by
  unfold Work.setFirst
  split
  · rename_i h; rw [h]
  · rfl
@[simp] theorem Work.setFirst_v (f : Nat) : (w.setFirst f).v = w.v := (Work.setFirst_keeps w f).version
@[simp] theorem Work.setFirst_state (f : Nat) : (w.setFirst f).st.state = w.st.state := by
  unfold Work.setFirst; split <;> rfl

@[simp] theorem Work.takeRow_c : w.takeRow.c = w.c := rfl
@[simp] theorem Work.takeRow_v : w.takeRow.v = w.v := rfl
@[simp] theorem Work.takeRow_state : w.takeRow.st.state = w.st.state := rfl
@[simp] theorem Work.returnRow_c : w.returnRow.c = w.c := rfl
@[simp] theorem Work.returnRow_v : w.returnRow.v = w.v := rfl
@[simp] theorem Work.returnRow_state : w.returnRow.st.state = w.st.state := rfl
@[simp] theorem Work.insertRowAt_v (p : Nat) (x : RowRec) : (w.insertRowAt p x).v = w.v := rfl
@[simp] theorem Work.insertRowAt_state (p : Nat) (x : RowRec) : (w.insertRowAt p x).st.state = w.st.state := rfl
@[simp] theorem Work.removeRowAt_v (p : Nat) : (w.removeRowAt p).v = w.v := rfl
@[simp] theorem Work.removeRowAt_state (p : Nat) : (w.removeRowAt p).st.state = w.st.state := rfl

@[simp] theorem Work.latch_c (k : Byte) : (w.latch k).c = w.c := Work.setLock_c _ _ _
@[simp] theorem Work.latch_state (k : Byte) : (w.latch k).st.state = .attention := Work.setLock_state _ _ _

@[simp] theorem Work.setTypeAhead_c (l : List Byte) : (w.setTypeAhead l).c = w.c := rfl
@[simp] theorem Work.setTypeAhead_v (l : List Byte) : (w.setTypeAhead l).v = w.v := rfl
@[simp] theorem Work.setTypeAhead_state (l : List Byte) : (w.setTypeAhead l).st.state = w.st.state := rfl

@[simp] theorem Work.dirtyBandAt_c (p : Nat) : (w.dirtyBandAt p).c = w.c := by
  unfold Work.dirtyBandAt; split <;> rfl
@[simp] theorem Work.dirtyBandAt_v (p : Nat) : (w.dirtyBandAt p).v = w.v := (Work.dirtyBandAt_keeps w p).version
@[simp] theorem Work.dirtyBandAt_state (p : Nat) : (w.dirtyBandAt p).st.state = w.st.state := by
  unfold Work.dirtyBandAt; split <;> rfl

/-! ### The state of the station in an act -/

@[simp] theorem Work.compute_state (r : InstRef) : (w.compute r).st.state = w.st.state := by
  unfold Work.compute
  split
  · exact Work.putInst_state _ _ _
  · rfl

@[simp] theorem Work.computeProductsOf_state (l : List (Nat × Nat)) :
    (w.computeProductsOf l).1.st.state = w.st.state :=
  foldl_measure (g := fun p : Work × List Nat => p.1.st.state) (fun p _ => Work.compute_state p.1 _) _ (w, _)

@[simp] theorem Work.computeSumsOf_state (ids : List Nat) : (w.computeSumsOf ids).st.state = w.st.state :=
  foldl_measure (g := fun w : Work => w.st.state) (fun w _ => Work.compute_state w _) _ w

@[simp] theorem Work.computeAllSums_state : w.computeAllSums.st.state = w.st.state :=
  foldl_measure (g := fun w : Work => w.st.state) (fun w _ => Work.compute_state w _) _ w

@[simp] theorem Work.computeRow_state (p : Nat) : (w.computeRow p).st.state = w.st.state :=
  foldl_measure (g := fun w : Work => w.st.state) (fun w _ => Work.compute_state w _) _ w

@[simp] theorem Work.tally_state (l : List (Nat × Nat)) : (w.tally l).st.state = w.st.state := by
  simp [Work.tally]

@[simp] theorem Work.exitField_state (negate : Bool) : (w.exitField negate).work.st.state = w.st.state := by
  unfold Work.exitField
  split
  · rfl
  split
  · rfl
  split
  · simp [ExitOutcome.work]
  · simp only [ExitOutcome.work]
    split <;> simp

theorem Work.exitField_passed_state {w w' : Work} {negate : Bool} {l : List (Nat × Nat)}
    (h : w.exitField negate = .passed w' l) : w'.st.state = w.st.state := by
  simpa [h, ExitOutcome.work] using Work.exitField_state w negate

theorem Work.exitField_failed_state {w w' : Work} {negate : Bool} (h : w.exitField negate = .failed w') :
    w'.st.state = w.st.state := by
  simpa [h, ExitOutcome.work] using Work.exitField_state w negate

@[simp] theorem Work.exitThenMove_state (b n : Bool) (l : List (Nat × Nat)) (f : Nat) (q : Pos) :
    (w.exitThenMove b n l f q).st.state = w.st.state := by
  have key : (if b then w.exitField n else .passed w []).work.st.state = w.st.state := by
    split
    · exact Work.exitField_state w n
    · rfl
  unfold Work.exitThenMove
  split
  · rename_i h
    rw [h] at key
    simpa [ExitOutcome.work] using key
  · rename_i h
    rw [h] at key
    simpa [ExitOutcome.work] using key

@[simp] theorem Work.moveAsTab_state (b : Bool) (l : List (Nat × Nat)) : (w.moveAsTab b l).st.state = w.st.state :=
  Work.exitThenMove_state _ _ _ _ _ _

@[simp] theorem Work.editText_state (u : Under) (t : Text) : (w.editText u t).st.state = w.st.state := by
  simp [Work.editText]

@[simp] theorem Work.dataKey_state (ch : Byte) : (w.dataKey ch).st.state = w.st.state := by
  unfold Work.dataKey Work.advance
  repeat' split
  all_goals simp

@[simp] theorem Work.eraseInputKey_state : w.eraseInputKey.st.state = w.st.state := by
  have erased : ((allRefs w.v w.c).foldl Work.eraseInst (w, [])).1.st.state = w.st.state :=
    foldl_measure (g := fun p : Work × List (Nat × Nat) => p.1.st.state) (f := Work.eraseInst) (fun p r => by
      unfold Work.eraseInst
      repeat' split
      all_goals simp) _ _
  simp [Work.eraseInputKey, erased]

@[simp] theorem Work.insertOperatorRow_state (l : List (Nat × Nat)) :
    (w.insertOperatorRow l).st.state = w.st.state := by
  simp [Work.insertOperatorRow]

@[simp] theorem Work.rowInsertKey_state : w.rowInsertKey.st.state = w.st.state := by
  unfold Work.rowInsertKey
  split
  · exact Work.operatorError_state _ _
  split
  · exact Work.operatorError_state _ _
  split
  · exact Work.operatorError_state _ _
  split
  · rename_i h; exact Work.exitField_failed_state h
  · rename_i h; exact (Work.insertOperatorRow_state _ _).trans (Work.exitField_passed_state h)

@[simp] theorem Work.deleteOperatorRow_state (p : Nat) (x : RowRec) :
    (w.deleteOperatorRow p x).st.state = w.st.state := by
  unfold Work.deleteOperatorRow
  dsimp only
  split <;> simp

@[simp] theorem Work.rowDeleteKey_state : w.rowDeleteKey.st.state = w.st.state := by
  unfold Work.rowDeleteKey
  repeat' split
  all_goals simp

@[simp] theorem Work.showRow_state (r : InstRef) : (w.showRow r).st.state = w.st.state := by
  unfold Work.showRow
  repeat' split
  all_goals simp

/-- R135: ENTER and the F keys latch an attention or leave the state alone. -/
theorem Work.reportKey_state (k : Byte) :
    (w.reportKey k).st.state = w.st.state ∨ (w.reportKey k).st.state = .attention := by
  unfold Work.reportKey
  split
  · rename_i h; exact .inl (Work.exitField_failed_state h)
  · rename_i h
    dsimp only
    split
    · exact .inl (by simpa using Work.exitField_passed_state h)
    · exact .inr (Work.latch_state _ _)

@[simp] theorem Work.rollTo_state (f : Nat) : (w.rollTo f).st.state = w.st.state := by
  unfold Work.rollTo; split <;> simp

@[simp] theorem Work.deleteKey_state : w.deleteKey.st.state = w.st.state := by
  unfold Work.deleteKey; split <;> simp

@[simp] theorem Work.eraseEofKey_state : w.eraseEofKey.st.state = w.st.state := by
  unfold Work.eraseEofKey; split <;> simp

@[simp] theorem Work.fieldExitKey_state : w.fieldExitKey.st.state = w.st.state := by
  unfold Work.fieldExitKey; split <;> simp

@[simp] theorem Work.fieldMinusKey_state : w.fieldMinusKey.st.state = w.st.state := by
  unfold Work.fieldMinusKey
  repeat' split
  all_goals simp

@[simp] theorem Work.dupKey_state : w.dupKey.st.state = w.st.state := by
  unfold Work.dupKey
  repeat' split
  all_goals simp

/-- A key leaves the state alone, or latches an attention. -/
theorem Work.applyDecoded_state (k : Key) :
    (w.applyDecoded k).st.state = w.st.state ∨ (w.applyDecoded k).st.state = .attention := by
  cases k with
  | attention c =>
    unfold Work.applyDecoded
    dsimp only
    split
    · exact .inr (Work.latch_state _ _)
    · exact Work.reportKey_state w c
  | data => exact .inl (Work.dataKey_state w _)
  | rollUp => exact .inl (Work.rollTo_state w _)
  | rollDown => exact .inl (Work.rollTo_state w _)
  | rowInsert => exact .inl (Work.rowInsertKey_state w)
  | rowDelete => exact .inl (Work.rowDeleteKey_state w)
  | delete => exact .inl (Work.deleteKey_state w)
  | eraseEof => exact .inl (Work.eraseEofKey_state w)
  | eraseInput =>
    have applied : w.applyDecoded .eraseInput = w.eraseInputKey := rfl
    rw [applied]
    exact .inl (Work.eraseInputKey_state w)
  | fieldExit => exact .inl (Work.fieldExitKey_state w)
  | fieldMinus => exact .inl (Work.fieldMinusKey_state w)
  | dup => exact .inl (Work.dupKey_state w)
  | insert => exact .inl (Work.setInsertMode_state w _)
  | reset => exact .inl (Work.setInsertMode_state w _)
  | tab => exact .inl (Work.moveAsTab_state w _ _)
  | backtab => exact .inl (Work.exitThenMove_state _ _ _ _ _ _)
  | home => exact .inl (Work.exitThenMove_state _ _ _ _ _ _)
  | newline => exact .inl (Work.exitThenMove_state _ _ _ _ _ _)
  | up => exact .inl (Work.exitThenMove_state _ _ _ _ _ _)
  | down => exact .inl (Work.exitThenMove_state _ _ _ _ _ _)
  | left => exact .inl (Work.exitThenMove_state _ _ _ _ _ _)
  | right => exact .inl (Work.exitThenMove_state _ _ _ _ _ _)

end

/-! ### A station with a form stays in a state that holds one (R28) -/

theorem Work.applyKey_holdsForm {w : Work} (h : holdsForm w.st.state = true) (k : Byte) :
    holdsForm (w.applyKey k).st.state = true := by
  unfold Work.applyKey
  cases decodeKey k with
  | none => exact h
  | some key =>
    dsimp only
    rcases Work.applyDecoded_state (w.setAdjusted false) key with e | e <;> rw [e]
    · simpa using h
    · rfl

theorem Work.drain_holdsForm (l : List Byte) {w : Work} (h : holdsForm w.st.state = true) :
    holdsForm (w.drain l).st.state = true := by
  induction l generalizing w with
  | nil => exact h
  | cons k rest ih =>
    have key : holdsForm ((w.setTypeAhead rest).applyKey k).st.state = true :=
      Work.applyKey_holdsForm (w := w.setTypeAhead rest) h k
    unfold Work.drain
    dsimp only
    split
    · exact ih key
    all_goals exact key

theorem Work.openKeyboard_holdsForm (w : Work) : holdsForm w.openKeyboard.st.state = true := by
  unfold Work.openKeyboard
  split
  · simp [holdsForm]
  · unfold Work.dealWithTypeAhead
    split
    · simp [holdsForm]
    · exact Work.drain_holdsForm _ (by simp [holdsForm])

theorem Work.fillEntry_state {w w' : Work} {e : FillEntry} (h : w.fillEntry e = .ok w') :
    w'.st.state = w.st.state := by
  have abandonEdit : ∀ (w : Work) r, (w.abandonEdit r).st.state = w.st.state := fun w r => by
    unfold Work.abandonEdit; dsimp only; repeat' split
    all_goals simp
  have leaveInst : ∀ (w : Work) b, (w.leaveInst b).st.state = w.st.state := fun w b => by
    unfold Work.leaveInst; repeat' split
    all_goals simp [abandonEdit]
  have fillInsert : ∀ {p x}, w.fillInsert p x = .ok w' → w'.st.state = w.st.state := fun {p x} h => by
    unfold Work.fillInsert at h
    repeat' split at h
    all_goals cases h
    simp [leaveInst]
  cases e with
  | set ref t =>
    simp only [Work.fillEntry, Work.fillSet] at h
    repeat' split at h
    all_goals cases h
    unfold Work.setInst
    dsimp only
    repeat' split
    all_goals simp
  | appendRow row => exact fillInsert h
  | insertRow p row => exact fillInsert h
  | deleteRow p =>
    simp only [Work.fillEntry, Work.fillDelete] at h
    repeat' split at h
    all_goals cases h
    all_goals simp [leaveInst]
  | tagRow p tag =>
    simp only [Work.fillEntry, Work.fillTag] at h
    repeat' split at h
    all_goals cases h
    rfl
  | cursor ref =>
    simp only [Work.fillEntry, Work.fillCursor] at h
    split at h <;> cases h
    simp [leaveInst]

theorem Work.fillEntries_state (l : List FillEntry) (w : Work) (k : Nat) :
    (w.fillEntries k l).1.st.state = w.st.state := by
  induction l generalizing w k with
  | nil => rfl
  | cons e rest ih =>
    unfold Work.fillEntries
    split
    · rfl
    · rename_i h
      exact (ih _ _).trans (Work.fillEntry_state h)

theorem Work.unlock_holdsForm {w : Work} (h : holdsForm w.st.state = true) : holdsForm w.unlock.st.state = true := by
  unfold Work.unlock
  split
  · exact Work.openKeyboard_holdsForm _
  · exact Work.openKeyboard_holdsForm _
  all_goals exact h

theorem Work.fill_holdsForm {w : Work} (h : holdsForm w.st.state = true) (l : List FillEntry) (u m : Bool) :
    holdsForm (w.fill l u m).1.st.state = true := by
  have entries := Work.fillEntries_state l w 1
  unfold Work.fill
  split
  · rename_i e
    rw [e] at entries
    exact entries ▸ h
  · rename_i w' e
    rw [e] at entries
    have h' : holdsForm w'.st.state = true := entries ▸ h
    unfold Work.fillOptions
    extract_lets cleared
    have hc : holdsForm cleared.st.state = true := by
      simp only [cleared]
      split <;> exact h'
    split
    · exact Work.unlock_holdsForm hc
    · exact hc

end Sys2Proof.Machine

/-! PROOFS. What every step keeps of the Template Store and of the forms built on it (R19 to R21, R28), said once for any
law of the staged load, of the versions and of the forms: which operations do not touch them, how one use is added and
taken, and the walk over all the commands. -/

namespace Sys2Proof.Machine

/-! ### A law of the forms -/

/-- What a law says of a staged load, of a version in the table, and of a form on its version. -/
structure FormRule where
  staged : Staging → Prop
  version : TemplateVersion → Prop
  form : TemplateVersion → Context → Prop

/-- The laws of the Template Store, and a law of the forms, in a state. -/
structure FormRule.Holds (L : FormRule) (s : State) : Prop where
  store : StoreLaw s
  staged : ∀ x, s.staging = some x → L.staged x
  versions : ∀ (e : EntryId) (v : TemplateVersion), s.table[e] = some v → L.version v
  forms : ∀ i c, (s.station i).ctx = some c → L.form (s.versionAt c.entry) c

/-- What a law must be closed under for every step to keep it: loading and installing, the counts and the status of a
version, building a form, a keystroke and an entry of a FILL. -/
structure FormRule.Closed (L : FormRule) : Prop where
  begun : ∀ {p : LoadBegin} {e : EntryId}, loadBeginOk p = true → L.staged
    { entry := e, declared := { p with group := heldGroup p.group }, fixed := [], rowDefs := [], literals := [] }
  added : ∀ {x y : Staging} {e : LoadEntry}, L.staged x → x.add e = some y → L.staged y
  installed : ∀ {x : Staging} {n : Nat}, L.staged x → x.offending = none → L.version (x.toVersion n)
  versionCounts : ∀ {v : TemplateVersion} (st : VersionStatus) (n : Nat),
    L.version v → L.version { v with status := st, useCount := n }
  formCounts : ∀ {v : TemplateVersion} {c : Context} (st : VersionStatus) (n : Nat),
    L.form v c → L.form { v with status := st, useCount := n } c
  composed : ∀ {w : Work} {e : EntryId} {r : ComposeRec}, L.version w.v → r.rows.length ≤ w.v.group.maxRows →
    buildContext w.v e r = .ok w.c → L.form w.v (placeCursor w.v w.tallyAll.c r.cursor)
  adjusted : ∀ {v : TemplateVersion} {c : Context} (b : Bool), L.form v c → L.form v { c with adjusted := b }
  modifiedCleared : ∀ {v : TemplateVersion} {c : Context}, L.form v c → L.form v (clearModifiedIn c)
  key : ∀ {w : Work} (k : Byte), L.version w.v → L.form w.v w.c → L.form w.v (w.applyKey k).c
  entry : ∀ {w w' : Work} {e : FillEntry}, L.version w.v → L.form w.v w.c → w.fillEntry e = .ok w' → L.form w.v w'.c

/-! ### States with the same forms -/

/-- `t` has the templates and the forms of `s`, and no station that holds a form has left the states that hold one. -/
structure SameForms (s t : State) : Prop where
  table : t.table = s.table
  staging : t.staging = s.staging
  ctx : ∀ j, (t.station j).ctx = (s.station j).ctx
  held : ∀ j, (t.station j).ctx.isSome = true → holdsForm (s.station j).state = true →
    holdsForm (t.station j).state = true

namespace SameForms

variable {s t u : State} {i : StationId}

theorem refl (s : State) : SameForms s s := ⟨rfl, rfl, fun _ => rfl, fun _ _ h => h⟩

theorem trans (h : SameForms s t) (k : SameForms t u) : SameForms s u :=
  ⟨k.table.trans h.table, k.staging.trans h.staging, fun j => (k.ctx j).trans (h.ctx j),
    fun j hc hs => k.held j hc (h.held j (k.ctx j ▸ hc) hs)⟩

/-- The stations are the same. -/
theorem of_stations (ht : t.table = s.table) (hg : t.staging = s.staging) (h : t.stations = s.stations) :
    SameForms s t :=
  ⟨ht, hg, fun j => by rw [State.station_eq_of_stations h], fun j _ hs => by rwa [State.station_eq_of_stations h]⟩

end SameForms

variable {L : FormRule} {i : StationId} {g : GenId}

section
variable (s : State)

/-- One station is changed, and keeps its form. -/
theorem State.setStation_same {st : Station} (hc : st.ctx = (s.station i).ctx)
    (hs : st.ctx.isSome = true → holdsForm (s.station i).state = true → holdsForm st.state = true) :
    SameForms s (s.setStation i st) := by
  refine ⟨rfl, rfl, fun j => ?_, fun j => ?_⟩ <;> rw [State.station_setStation] <;> split
  · rename_i h; rw [h, hc]
  · rfl
  · rename_i h; rw [h]; exact hs
  · exact fun _ h => h

theorem State.modStation_same {f : Station → Station} (hc : ∀ st, (f st).ctx = st.ctx)
    (hs : ∀ st, (f st).state = st.state) : SameForms s (s.modStation i f) :=
  State.setStation_same s (hc _) (fun _ h => by rwa [hs])

theorem State.modPaint_same (f : Paint → Paint) : SameForms s (s.modPaint i f) :=
  State.modStation_same s (by intro _; rfl) (by intro _; rfl)

theorem State.modLink_same (f : LoopRecord → LoopRecord) : SameForms s (s.modLink i f) :=
  State.modStation_same s (by intro _; rfl) (by intro _; rfl)

theorem State.setFull_same (m : Marker → Marker) : SameForms s (s.setFull i m) :=
  State.modStation_same s (by intro _; rfl) (by intro _; rfl)

theorem State.release_same : SameForms s (s.release g) := .of_stations rfl rfl rfl

theorem State.place_same (n : Nat) (r : Inbound) : SameForms s (s.place g n r) := .of_stations rfl rfl rfl

theorem State.refuseControl_same (k : Nat) (e : Reason) : SameForms s (s.refuseControl g k e) :=
  State.place_same s _ _

theorem State.refuseRecord_same (k : Nat) (e : Reason) (a b : Option Nat) :
    SameForms s (s.refuseRecord i g k e a b) := State.place_same s _ _

theorem State.doneRecord_same (k : Nat) : SameForms s (s.doneRecord i g k) := State.place_same s _ _

theorem State.placeAttention_same (k : Byte) : SameForms s (s.placeAttention i k) := .of_stations rfl rfl rfl

theorem State.raise_same (e : Event) : SameForms s (s.raise e) := .of_stations (by simp) (by simp) (by simp)

@[simp] theorem Station.withIndicator_ctx (st : Station) (f : Station → Station) :
    (st.withIndicator f).ctx = (f st).ctx := by
  unfold Station.withIndicator; dsimp only; split <;> rfl

@[simp] theorem Station.withIndicator_state (st : Station) (f : Station → Station) :
    (st.withIndicator f).state = (f st).state := by
  unfold Station.withIndicator; dsimp only; split <;> rfl

theorem State.setLock_same {x : StationState} (l : Lock) (h : holdsForm x = true ∨ (s.station i).ctx = none) :
    SameForms s (s.setLock i x l) := by
  refine State.setStation_same s (by simp) fun hc _ => ?_
  rcases h with h | h
  · simpa using h
  · simp [h] at hc

theorem State.cut_same : SameForms s s.cut := by
  unfold State.cut
  split
  · exact .of_stations rfl rfl rfl
  all_goals exact .refl s

theorem State.removeRecord_same (n : SlotName) : SameForms s (s.removeRecord n) := by
  unfold State.removeRecord
  split
  · exact State.cut_same s
  · exact .of_stations rfl rfl rfl

theorem State.takeRows_same (k : Nat) : SameForms s (s.takeRows k) := by
  unfold State.takeRows
  extract_lets falls taken
  have h : SameForms s taken := .of_stations rfl rfl rfl
  split
  · exact h.trans (State.raise_same _ _)
  · exact h

theorem State.supersede_same : SameForms s (s.supersede i) := by
  unfold State.supersede
  split
  · exact (State.modStation_same s (by intro _; rfl) (by intro _; rfl)).trans (State.release_same _)
  · exact State.modStation_same s (by intro _; rfl) (by intro _; rfl)

theorem State.latchBlank_same (k : Byte) : SameForms s (s.latchBlank i k) :=
  (State.setLock_same s _ (.inl rfl)).trans (State.placeAttention_same _ _)

theorem State.openBlank_same (h : (s.station i).ctx = none) : SameForms s (s.openBlank i) := by
  unfold State.openBlank
  extract_lets blank st
  have hb : SameForms s blank := State.setLock_same s _ (.inr h)
  split
  · exact hb.trans (State.modStation_same _ (by intro _; rfl) (by intro _; rfl))
  split
  · exact (hb.trans (State.modStation_same _ (by intro _; rfl) (by intro _; rfl))).trans (State.latchBlank_same _ _)
  · exact hb.trans (State.modStation_same _ (by intro _; rfl) (by intro _; rfl))

theorem State.endReleasing_same (h : (s.station i).ctx = none) : SameForms s (s.endReleasing i) := by
  unfold State.endReleasing
  extract_lets slot blank ended
  have hb : SameForms s blank := State.setLock_same s _ (.inr h)
  have he : SameForms blank ended := State.modStation_same _ (by intro _; rfl) (by intro _; rfl)
  clear_value slot
  split
  · exact (hb.trans he).trans (State.place_same _ _ _)
  · exact hb.trans he

theorem State.joinTypeAhead_same (k : Byte) : SameForms s (s.joinTypeAhead i k) := by
  unfold State.joinTypeAhead
  dsimp only
  split
  · exact State.setStation_same s rfl (fun _ h => h)
  split
  · exact .refl s
  · exact (State.setStation_same s (st := { s.station i with overrun := true }) rfl (fun _ h => h)).trans
      (State.raise_same _ _)

theorem State.takeNote_same (b : Bool) (x : Text) : SameForms s (s.takeNote i g b x) := by
  unfold State.takeNote
  split
  · exact State.refuseRecord_same s _ _ _ _
  · extract_lets noted painted alarmed
    have h1 : SameForms s noted := State.modStation_same s (by intro _; rfl) (by intro _; rfl)
    have h2 : SameForms noted painted := State.modStation_same _ (by intro _; rfl) (by intro _; rfl)
    have h3 : SameForms painted alarmed := by
      simp only [alarmed]
      split
      · exact State.modPaint_same _ _
      · exact .refl _
    exact ((h1.trans h2).trans h3).trans (State.doneRecord_same _ _)

theorem State.takeLock_same : SameForms s (s.takeLock i g) := by
  unfold State.takeLock
  split
  · exact (State.setLock_same s _ (.inl rfl)).trans (State.doneRecord_same _ _)
  · exact (State.modStation_same s (by intro _; rfl) (by intro _; rfl)).trans (State.doneRecord_same _ _)
  · exact State.doneRecord_same s _
  · exact State.doneRecord_same s _
  · exact State.refuseRecord_same s _ _ _ _

theorem State.takeRead_same : SameForms s (s.takeRead i g) := by
  unfold State.takeRead
  split
  · dsimp only
    split
    · exact (State.place_same s _ _).trans (State.setLock_same _ _ (.inl rfl))
    · exact State.place_same s _ _
  · exact State.refuseRecord_same s _ _ _ _

theorem State.resync_same : SameForms s (s.resync i) :=
  (State.modLink_same s _).trans (State.setFull_same _ _)

theorem State.comeOnline_same : SameForms s (s.comeOnline i) :=
  ((State.raise_same s _).trans (State.modLink_same _ _)).trans (State.setFull_same _ _)

theorem State.placeNotice_same : SameForms s s.placeNotice := by
  rw [State.placeNotice_eq]
  exact .of_stations rfl rfl rfl

theorem State.updateEvents_same (r : RawEvents) (m : Mask) : SameForms s (s.updateEvents r m) := by
  rw [State.updateEvents_eq]
  exact .of_stations rfl rfl rfl

end

/-! ### Transfer -/

/-- The laws of the Template Store are of the table, the staging, the entries the forms name and the states. -/
theorem StoreLaw.transfer {s t : State} (h : StoreLaw s) (ht : t.table = s.table) (hg : t.staging = s.staging)
    (he : ∀ j, (t.station j).ctx.map Context.entry = (s.station j).ctx.map Context.entry) (hf : FormsHeld t) :
    StoreLaw t := by
  obtain ⟨_, live, counts, held, free⟩ := h
  refine ⟨hf, ?_, ?_, ?_, ?_⟩
  · simpa only [OneLive, ht] using live
  · simpa only [UseCounts, ht, usesOf_congr he] using counts
  · intro j c hc
    have := he j
    rw [hc] at this
    obtain ⟨c', hc', e⟩ := Option.map_eq_some_iff.mp this.symm
    rw [ht, ← getElem_fin_congr s.table e]
    exact held j c' hc'
  · simpa only [ht, hg] using free

/-- Each station keeps its form, or changes it on its version within the law. -/
theorem FormRule.Holds.transfer {s t : State} (h : L.Holds s) (ht : t.table = s.table) (hg : t.staging = s.staging)
    (hc : ∀ j, (t.station j).ctx = (s.station j).ctx ∨ ∃ c c', (s.station j).ctx = some c ∧
      (t.station j).ctx = some c' ∧ c'.entry = c.entry ∧ L.form (s.versionAt c.entry) c') (hf : FormsHeld t) :
    L.Holds t := by
  have hv : ∀ e, t.versionAt e = s.versionAt e := fun e => by simp only [State.versionAt, ht]
  refine ⟨h.store.transfer ht hg (fun j => ?_) hf, by simpa only [hg] using h.staged,
    by simpa only [ht] using h.versions, fun j d hd => ?_⟩
  · rcases hc j with e | ⟨c, c', e, e', hentry, -⟩
    · rw [e]
    · simp [e, e', hentry]
  · rcases hc j with e | ⟨c, c', e, e', hentry, hform⟩
    · rw [hv]; exact h.forms j d (e ▸ hd)
    · cases hd.symm.trans e'
      rwa [hv, hentry]

theorem FormRule.Holds.of_same {s t : State} (h : L.Holds s) (k : SameForms s t) : L.Holds t :=
  h.transfer k.table k.staging (fun j => .inl (k.ctx j))
    (fun j hc => k.held j hc (h.store.1 j (k.ctx j ▸ hc)))

/-- R28: a station in another state holds no form. -/
theorem FormRule.Holds.ctx_none {s : State} (h : L.Holds s) {i : StationId}
    (hi : holdsForm (s.station i).state = false) : (s.station i).ctx = none := by
  cases hc : (s.station i).ctx with
  | none => rfl
  | some c => simp [h.store.1 i (by simp [hc])] at hi

/-- A form's entry holds a version, which meets the law. -/
theorem FormRule.Holds.version_of_form {s : State} (h : L.Holds s) {i : StationId} {c : Context}
    (hc : (s.station i).ctx = some c) :
    ∃ v, s.table[c.entry] = some v ∧ L.version (s.versionAt c.entry) := by
  obtain ⟨_, _, _, held, _⟩ := h.store
  obtain ⟨v, hv⟩ := Option.isSome_iff_exists.mp (held i c hc)
  exact ⟨v, hv, State.versionAt_of_some hv ▸ h.versions _ v hv⟩

/-! ### One use more, one use less -/

/-- One entry of the table has changed in its use count and status, or has been emptied: `o` says what it holds. -/
structure EntryCounted (s t : State) (e : EntryId) (v : TemplateVersion) : Prop where
  before : s.table[e] = some v
  after : t.table[e] = none ∨ ∃ st n, t.table[e] = some { v with status := st, useCount := n }
  others : ∀ f, f ≠ e → t.table[f] = s.table[f]

theorem EntryCounted.of_set {s t : State} {e : EntryId} {v : TemplateVersion} {o : Option TemplateVersion}
    (hv : s.table[e] = some v) (ht : t.table = s.table.set e o)
    (ho : o = none ∨ ∃ st n, o = some { v with status := st, useCount := n }) : EntryCounted s t e v := by
  refine ⟨hv, ?_, fun f hf => ?_⟩
  · simpa only [ht, getElem_set_fin, if_true] using ho
  · simp only [ht, getElem_set_fin, if_neg hf]

/-- A version of the table after such a change was one before it. -/
theorem EntryCounted.was {s t : State} {e : EntryId} {v : TemplateVersion} (k : EntryCounted s t e v) {f : EntryId}
    {w : TemplateVersion} (hw : t.table[f] = some w) :
    ∃ x, s.table[f] = some x ∧ w = { x with status := w.status, useCount := w.useCount } := by
  rcases eq_or_ne f e with rfl | hf
  · rcases k.after with h | ⟨st, n, h⟩ <;> rw [h] at hw
    · cases hw
    · cases hw
      exact ⟨v, k.before, rfl⟩
  · rw [k.others f hf] at hw
    exact ⟨w, hw, rfl⟩

/-- A law of the versions and forms goes through such a change. -/
theorem EntryCounted.laws {s t : State} {e : EntryId} {v : TemplateVersion} (k : EntryCounted s t e v)
    (hL : L.Closed) (h : L.Holds s) :
    (∀ (f : EntryId) (w : TemplateVersion), t.table[f] = some w → L.version w)
      ∧ ∀ (f : EntryId) c, t.table[f].isSome = true → L.form (s.versionAt f) c → L.form (t.versionAt f) c := by
  refine ⟨fun f w hw => ?_, fun f c hf hc => ?_⟩
  · obtain ⟨x, hx, e⟩ := k.was hw
    rw [e]
    exact hL.versionCounts _ _ (h.versions f x hx)
  · obtain ⟨w, hw⟩ := Option.isSome_iff_exists.mp hf
    obtain ⟨x, hx, e⟩ := k.was hw
    rw [State.versionAt_of_some hw, e]
    exact hL.formCounts _ _ (State.versionAt_of_some hx ▸ hc)

/-- A staged load's entry stays free. -/
theorem EntryCounted.staging_free {s t : State} {e : EntryId} {v : TemplateVersion} (k : EntryCounted s t e v)
    (h : EntriesHeld s) (hg : t.staging = s.staging) : ∀ x, t.staging = some x → t.table[x.entry] = none := by
  intro x hx
  have free := h.2 x (hg ▸ hx)
  have hne : x.entry ≠ e := fun h => by
    rw [getElem_fin_congr s.table h, k.before] at free
    cases free
  rw [k.others _ hne, free]

/-- R20, R21: a station loses its form; the version has one use less, and is gone when it is RETIRED and unused. -/
theorem FormRule.Holds.form_dropped {s t : State} (hL : L.Closed) (h : L.Holds s) {c : Context} {v : TemplateVersion}
    (hc : (s.station i).ctx = some c) (hv : s.table[c.entry] = some v)
    (ht : t.table = s.table.set c.entry
      (if v.status = .retired ∧ v.useCount - 1 = 0 then none else some { v with useCount := v.useCount - 1 }))
    (hg : t.staging = s.staging) (hi : (t.station i).ctx = none) (ho : ∀ j, j ≠ i → t.station j = s.station j) :
    L.Holds t := by
  obtain ⟨formsHeld, live, counts, entries⟩ := h.store
  have uses := usesOf_form_built (s := t) (t := s) (fun j hj => (ho j hj).symm) hi hc
  have countAt := (counts c.entry v hv).1
  rw [uses c.entry, if_pos rfl] at countAt
  have after : t.table[c.entry]
      = if v.status = .retired ∧ v.useCount - 1 = 0 then none else some { v with useCount := v.useCount - 1 } := by
    simp only [ht, getElem_set_fin, if_true]
  have k : EntryCounted s t c.entry v := .of_set hv ht (by split; exacts [.inl rfl, .inr ⟨v.status, _, rfl⟩])
  obtain ⟨versions, forms⟩ := k.laws hL h
  have stationOther : ∀ j d, (t.station j).ctx = some d → (s.station j).ctx = some d := fun j d hd => by
    rcases eq_or_ne j i with rfl | hj
    · rw [hi] at hd; cases hd
    · rwa [ho j hj] at hd
  have held : ∀ j d, (t.station j).ctx = some d → t.table[d.entry].isSome = true := fun j d hd => by
    rcases eq_or_ne d.entry c.entry with e | e
    · have used : usesOf t c.entry ≠ 0 := fun hz => usesOf_eq_zero.mp hz j d hd e
      rw [getElem_fin_congr t.table e, after, if_neg (by omega)]
      rfl
    · rw [k.others _ e]
      exact entries.1 j d (stationOther j d hd)
  refine ⟨⟨fun j hj => ?_, fun e f v' w' hv' hw' lv lw hid => ?_, fun f w hw => ?_, held, k.staging_free entries hg⟩,
    fun x hx => h.staged x (hg ▸ hx), versions, fun j d hd => ?_⟩
  · obtain ⟨d, hd⟩ := Option.isSome_iff_exists.mp hj
    rcases eq_or_ne j i with rfl | hne
    · rw [hi] at hd; cases hd
    · rw [ho j hne] at hj ⊢
      exact formsHeld j hj
  · have status : ∀ {f : EntryId} {w : TemplateVersion}, t.table[f] = some w →
        ∃ x, s.table[f] = some x ∧ x.id = w.id ∧ x.status = w.status := by
      intro f w hw
      rcases eq_or_ne f c.entry with rfl | hf
      · rw [after] at hw
        split at hw <;> cases hw
        exact ⟨v, hv, rfl, rfl⟩
      · exact ⟨w, k.others f hf ▸ hw, rfl, rfl⟩
    obtain ⟨x, hx, idx, sx⟩ := status hv'
    obtain ⟨y, hy, idy, sy⟩ := status hw'
    exact live e f x y hx hy (sx.trans lv) (sy.trans lw) (idx.trans (hid.trans idy.symm))
  · rcases eq_or_ne f c.entry with rfl | hf
    · rw [after] at hw
      split at hw <;> cases hw
      rename_i hn
      exact ⟨by dsimp only; omega, fun hr => by dsimp only at hr ⊢; exact fun hz => hn ⟨hr, hz⟩⟩
    · have := uses f
      rw [if_neg hf, Nat.add_zero] at this
      rw [← this]
      exact counts f w (k.others f hf ▸ hw)
  · exact forms _ d (held j d hd) (h.forms j d (stationOther j d hd))

/-- R20: a station without a form is given one; its version has one use more. -/
theorem FormRule.Holds.form_built {s t : State} (hL : L.Closed) (h : L.Holds s) {c : Context} {v : TemplateVersion}
    (hc : (s.station i).ctx = none) (hv : s.table[c.entry] = some v)
    (ht : t.table = s.table.set c.entry (some { v with useCount := v.useCount + 1 })) (hg : t.staging = s.staging)
    (hi : (t.station i).ctx = some c) (hs : holdsForm (t.station i).state = true)
    (ho : ∀ j, j ≠ i → t.station j = s.station j) (hform : L.form (t.versionAt c.entry) c) : L.Holds t := by
  obtain ⟨formsHeld, live, counts, entries⟩ := h.store
  have uses := usesOf_form_built ho hc hi
  have after : t.table[c.entry] = some { v with useCount := v.useCount + 1 } := by
    simp only [ht, getElem_set_fin, if_true]
  have k : EntryCounted s t c.entry v := .of_set hv ht (.inr ⟨v.status, _, rfl⟩)
  obtain ⟨versions, forms⟩ := k.laws hL h
  have held : ∀ j d, (t.station j).ctx = some d → t.table[d.entry].isSome = true := fun j d hd => by
    rcases eq_or_ne d.entry c.entry with e | e
    · rw [getElem_fin_congr t.table e, after]; rfl
    · rcases eq_or_ne j i with rfl | hj
      · rw [hi] at hd; cases hd; exact absurd rfl e
      · rw [k.others _ e]; exact entries.1 j d (ho j hj ▸ hd)
  refine ⟨⟨fun j hj => ?_, fun e f v' w' hv' hw' lv lw hid => ?_, fun f w hw => ?_, held, k.staging_free entries hg⟩,
    fun x hx => h.staged x (hg ▸ hx), versions, fun j d hd => ?_⟩
  · rcases eq_or_ne j i with rfl | hne
    · exact hs
    · rw [ho j hne] at hj ⊢
      exact formsHeld j hj
  · have status : ∀ {f : EntryId} {w : TemplateVersion}, t.table[f] = some w →
        ∃ x, s.table[f] = some x ∧ x.id = w.id ∧ x.status = w.status := by
      intro f w hw
      rcases eq_or_ne f c.entry with rfl | hf
      · rw [after] at hw
        cases hw
        exact ⟨v, hv, rfl, rfl⟩
      · exact ⟨w, k.others f hf ▸ hw, rfl, rfl⟩
    obtain ⟨x, hx, idx, sx⟩ := status hv'
    obtain ⟨y, hy, idy, sy⟩ := status hw'
    exact live e f x y hx hy (sx.trans lv) (sy.trans lw) (idx.trans (hid.trans idy.symm))
  · rw [uses f]
    rcases eq_or_ne f c.entry with rfl | hf
    · rw [after] at hw
      cases hw
      exact ⟨by simp [(counts _ v hv).1], fun _ => Nat.succ_ne_zero _⟩
    · rw [if_neg hf, Nat.add_zero]
      exact counts f w (k.others f hf ▸ hw)
  · rcases eq_or_ne j i with rfl | hj
    · rw [hi] at hd; cases hd; exact hform
    · exact forms _ d (held j d hd) (h.forms j d (ho j hj ▸ hd))

end Sys2Proof.Machine

/-! PROOFS. The walk over the commands for a law of the forms: acts, records, the loop, the Template Store and the
resets. -/

namespace Sys2Proof.Machine

variable {L : FormRule} {i : StationId} {g : GenId}

/-! ### One act on a station -/

section
variable (s : State) (w : Work)

@[simp] theorem State.placeLatched_table (k : Option Byte) : (s.placeLatched i k).table = s.table := by
  cases k <;> rfl
@[simp] theorem State.placeLatched_staging (k : Option Byte) : (s.placeLatched i k).staging = s.staging := by
  cases k <;> rfl
@[simp] theorem State.placeLatched_stations (k : Option Byte) : (s.placeLatched i k).stations = s.stations := by
  cases k <;> rfl

theorem State.closeWork_table : (s.closeWork i w).table = s.table := by
  unfold State.closeWork; dsimp only; split <;> simp [State.storeWork]

theorem State.closeWork_staging : (s.closeWork i w).staging = s.staging := by
  unfold State.closeWork; dsimp only; split <;> simp [State.storeWork]

theorem State.closeWork_stations : (s.closeWork i w).stations = s.stations.set i { w.st with ctx := some w.c } := by
  unfold State.closeWork; dsimp only; split <;> simp [State.storeWork]

theorem State.closeWork_station (j : StationId) :
    (s.closeWork i w).station j = if j = i then { w.st with ctx := some w.c } else s.station j := by
  simp only [State.station, State.closeWork_stations, getElem_set_fin]

end

/-- An act on a form ends within the law when its form does. -/
theorem FormRule.Holds.closeWork {s : State} (h : L.Holds s) {c : Context} {w : Work}
    (hc : (s.station i).ctx = some c) (he : w.c.entry = c.entry) (hs : holdsForm w.st.state = true)
    (hw : L.form (s.versionAt c.entry) w.c) : L.Holds (s.closeWork i w) := by
  refine h.transfer (State.closeWork_table s w) (State.closeWork_staging s w) (fun j => ?_) (fun j hj => ?_)
  · rw [State.closeWork_station]
    split
    · rename_i e
      exact .inr ⟨c, w.c, e ▸ hc, rfl, he, hw⟩
    · exact .inl rfl
  · rw [State.closeWork_station] at hj ⊢
    split at hj
    · rename_i e
      rwa [if_pos e]
    · rename_i e
      rw [if_neg e]
      exact h.store.1 j hj

/-- What an act must do for a law of the forms to outlast it. -/
structure FormRule.Allows (L : FormRule) (f : Work → Work) : Prop where
  keeps : ∀ w, Keeps w (f w)
  held : ∀ w, holdsForm w.st.state = true → holdsForm (f w).st.state = true
  form : ∀ w, L.version w.v → L.form w.v w.c → L.form w.v (f w).c

theorem FormRule.Holds.act {s : State} (h : L.Holds s) {f : Work → Work} (hf : L.Allows f) : L.Holds (s.act i f) := by
  unfold State.act
  split
  · rename_i c hc
    obtain ⟨_, -, hv⟩ := h.version_of_form hc
    exact h.closeWork hc (hf.keeps _).entry (hf.held _ (h.store.1 i (by simp [hc])))
      (hf.form (s.openWork i c) hv (h.forms i c hc))
  · exact h

/-! ### The acts of the keyboard and of a FILL -/

section
variable (hL : L.Closed)
include hL

theorem FormRule.Closed.drain (l : List Byte) {w : Work} (hv : L.version w.v) (h : L.form w.v w.c) :
    L.form w.v (w.drain l).c := by
  induction l generalizing w with
  | nil => exact h
  | cons k rest ih =>
    have key : L.form w.v ((w.setTypeAhead rest).applyKey k).c := hL.key (w := w.setTypeAhead rest) k hv h
    have hv' : ((w.setTypeAhead rest).applyKey k).v = w.v := (Work.applyKey_keeps _ k).version
    unfold Work.drain
    dsimp only
    split
    · have := ih (w := (w.setTypeAhead rest).applyKey k) (hv' ▸ hv) (hv' ▸ key)
      rwa [hv'] at this
    all_goals exact key

theorem FormRule.Closed.openKeyboard {w : Work} (hv : L.version w.v) (h : L.form w.v w.c) :
    L.form w.v w.openKeyboard.c := by
  unfold Work.openKeyboard
  split
  · simpa using h
  · unfold Work.dealWithTypeAhead
    split
    · simpa using h
    · have := hL.drain (w.setLock .entry .none).st.typeAhead (w := w.setLock .entry .none) (by simpa using hv)
        (by simpa using h)
      simpa using this

theorem FormRule.Closed.allows_openKeyboard : L.Allows Work.openKeyboard :=
  ⟨Work.openKeyboard_keeps, fun w _ => Work.openKeyboard_holdsForm w, fun _ hv h => hL.openKeyboard hv h⟩

theorem FormRule.Closed.allows_applyKey (k : Byte) : L.Allows (fun w => w.applyKey k) :=
  ⟨fun w => Work.applyKey_keeps w k, fun _ h => Work.applyKey_holdsForm h k, fun _ hv h => hL.key k hv h⟩

theorem FormRule.Closed.allows_resetError : L.Allows Work.resetError := by
  refine ⟨Work.resetError_keeps, fun w _ => Work.openKeyboard_holdsForm _, fun w hv h => ?_⟩
  have := hL.openKeyboard (w := w.setAdjusted false) (by simpa using hv) (by simpa using hL.adjusted false h)
  simpa [Work.resetError] using this

omit hL in
theorem FormRule.allows_operatorError (code : ErrorCode) : L.Allows (fun w => w.operatorError code) :=
  ⟨fun w => Work.operatorError_keeps w code, fun w h => by simpa using h, fun w _ h => by simpa using h⟩

theorem FormRule.Closed.unlock {w : Work} (hv : L.version w.v) (h : L.form w.v w.c) : L.form w.v w.unlock.c := by
  unfold Work.unlock
  split
  · exact hL.openKeyboard hv h
  · exact hL.openKeyboard hv h
  all_goals exact h

theorem FormRule.Closed.allows_unlock : L.Allows Work.unlock :=
  ⟨Work.unlock_keeps, fun _ h => Work.unlock_holdsForm h, fun _ hv h => hL.unlock hv h⟩

theorem FormRule.Closed.fillEntries (l : List FillEntry) {w : Work} (k : Nat) (hv : L.version w.v)
    (h : L.form w.v w.c) : L.form w.v (w.fillEntries k l).1.c := by
  induction l generalizing w k with
  | nil => exact h
  | cons e rest ih =>
    unfold Work.fillEntries
    split
    · exact h
    · rename_i w' he
      have hv' : w'.v = w.v := (Work.fillEntry_keeps he).version
      have := ih (w := w') (k + 1) (hv' ▸ hv) (hv' ▸ hL.entry hv h he)
      rwa [hv'] at this

theorem FormRule.Closed.fill {w : Work} (l : List FillEntry) (u m : Bool) (hv : L.version w.v)
    (h : L.form w.v w.c) : L.form w.v (w.fill l u m).1.c := by
  have entries := hL.fillEntries l 1 hv h
  have kept := (Work.fillEntries_keeps l w 1).version
  unfold Work.fill
  split
  · rename_i e
    rwa [e] at entries
  · rename_i w' e
    rw [e] at entries kept
    replace kept : w'.v = w.v := kept
    unfold Work.fillOptions
    extract_lets cleared
    have hcv : cleared.v = w.v := by
      simp only [cleared]
      split <;> exact kept
    have hc : L.form w.v cleared.c := by
      simp only [cleared]
      split
      · exact hL.modifiedCleared entries
      · exact entries
    split
    · have := hL.unlock (w := cleared) (hcv ▸ hv) (hcv ▸ hc)
      rwa [hcv] at this
    · exact hc

end

/-! ### Records taken by a station (Contexts.lean) -/

section
variable {s : State} (hL : L.Closed)

/-- R20: what is left of a form that is dropped. -/
theorem State.dropContext_ctx (s : State) : ((s.dropContext i).station i).ctx = none := by
  unfold State.dropContext
  split
  · rename_i c _
    extract_lets st p s1 s2
    have h1 : (s2.station i).ctx = none := by simp [s2, s1, State.station, State.setStation]
    have h2 : (s2.lowerUse c.entry).stations = s2.stations := by
      cases he : s2.table[c.entry] with
      | none => rw [State.lowerUse_of_none he]
      | some v => rw [State.lowerUse_eq he]; split <;> simp
    rwa [State.station_eq_of_stations h2]
  · assumption

/-- R20, R21: the table after a form built on a version in the table is dropped. -/
theorem State.dropContext_table {c : Context} {v : TemplateVersion} (hc : (s.station i).ctx = some c)
    (hv : s.table[c.entry] = some v) :
    (s.dropContext i).table = s.table.set c.entry
      (if v.status = .retired ∧ v.useCount - 1 = 0 then none else some { v with useCount := v.useCount - 1 }) := by
  unfold State.dropContext
  simp only [hc]
  rw [State.lowerUse_eq (v := v) (by simpa using hv)]
  split <;> simp

theorem FormRule.Holds.dropContext (hL : L.Closed) (h : L.Holds s) : L.Holds (s.dropContext i) := by
  cases hc : (s.station i).ctx with
  | none => simpa only [State.dropContext, hc] using h
  | some c =>
    obtain ⟨v, hv, -⟩ := h.version_of_form hc
    have only : OnlyStation i s (s.dropContext i) := State.dropContext_only s
    exact h.form_dropped hL hc hv (State.dropContext_table hc hv) only.staging (State.dropContext_ctx s) only.stations

/-- A LIVE version stays in the table when a form is dropped. -/
theorem FormRule.Holds.dropContext_live (h : L.Holds s) {e : EntryId} {v : TemplateVersion}
    (hv : s.table[e] = some v) (hst : v.status = .live) :
    ∃ n, (s.dropContext i).table[e] = some { v with useCount := n } := by
  cases hc : (s.station i).ctx with
  | none => exact ⟨v.useCount, by simpa only [State.dropContext, hc] using hv⟩
  | some c =>
    obtain ⟨u, hu, -⟩ := h.version_of_form hc
    rw [State.dropContext_table hc hu]
    simp only [getElem_set_fin]
    split
    · rename_i he
      rw [getElem_fin_congr s.table he, hu] at hv
      cases hv
      exact ⟨_, by rw [if_neg (by simp [hst])]⟩
    · exact ⟨v.useCount, hv⟩

/-- R42: a COMPOSE that fails gives its use back. -/
theorem State.composeFails_same {t : State} {e : EntryId} {v : TemplateVersion} (hv : s.table[e] = some v)
    (hst : v.status = .live) (hc : (s.station i).ctx = none)
    (ht : t.table = s.table.set e (some { v with useCount := v.useCount + 1 })) (hg : t.staging = s.staging)
    (hs : t.stations = s.stations) (n : Nat) (f : ComposeFailure) : SameForms s (t.composeFails i g e n f) := by
  unfold State.composeFails
  extract_lets s1 s2 s3 s4
  have hv1 : s1.table[e] = some { v with useCount := v.useCount + 1 } := by
    simp only [s1, ht, getElem_set_fin, if_true]
  have h2 : s2 = s1.setEntry e (some v) := by
    simp only [s2]
    rw [State.lowerUse_eq hv1, if_neg (by simp [hst])]
    rfl
  have restored : s2.table = s.table := by
    apply Vector.ext
    intro k hk
    have := getElem_set_fin s.table e ⟨k, hk⟩ (some v)
    simp only [h2, s1, State.setEntry_table, ht, Vector.set_set]
    refine Eq.trans this ?_
    split
    · rename_i he; subst he; exact hv.symm
    · rfl
  have hsame : SameForms s s2 := by
    refine .of_stations restored ?_ ?_
    · rw [h2]; exact hg
    · rw [h2]; exact hs
  have hc2 : (s2.station i).ctx = none := by rw [hsame.ctx i, hc]
  have h3 : SameForms s2 s3 := State.setStation_same s2 rfl (fun h => by simp [hc2] at h)
  exact ((hsame.trans h3).trans (State.setFull_same _ _)).trans (State.refuseRecord_same _ _ _ _ _)

theorem buildContext_entry {v : TemplateVersion} {e : EntryId} {r : ComposeRec} {c : Context}
    (h : buildContext v e r = .ok c) : c.entry = e := by
  unfold buildContext at h
  repeat' split at h
  all_goals cases h
  rfl

theorem placeCursor_entry (v : TemplateVersion) (c : Context) (ref : FieldRef) :
    (placeCursor v c ref).entry = c.entry := by
  unfold placeCursor; split <;> rfl

/-- R41: the form of a COMPOSE that succeeds. -/
theorem FormRule.Holds.composeSucceeds (hL : L.Closed) {t : State} (h : L.Holds s) {r : ComposeRec} {c : Context}
    {v : TemplateVersion} (hc : (s.station i).ctx = none) (hv : s.table[c.entry] = some v)
    (ht : t.table = s.table.set c.entry (some { v with useCount := v.useCount + 1 })) (hg : t.staging = s.staging)
    (hs : t.stations = s.stations) (hrows : r.rows.length ≤ v.group.maxRows)
    (hb : buildContext (t.versionAt c.entry) c.entry r = .ok c) : L.Holds (t.composeSucceeds i g r c) := by
  unfold State.composeSucceeds
  extract_lets w built s1 s2
  have htv : t.versionAt c.entry = { v with useCount := v.useCount + 1 } :=
    State.versionAt_of_some (by simp only [ht, getElem_set_fin, if_true])
  have hw : w.v = (t.openWork i c).v := (Work.tallyAll_keeps _).version
  have entry : built.entry = c.entry := (placeCursor_entry _ _ _).trans (Work.tallyAll_keeps _).entry
  have form : L.form (t.versionAt c.entry) built := by
    have := hL.composed (w := t.openWork i c) (e := c.entry) (r := r)
      (by simpa only [State.openWork, htv] using hL.versionCounts v.status _ (h.versions _ v hv))
      (by simpa only [State.openWork, htv] using hrows) hb
    simp only [built, hw]
    exact this
  have h1 : L.Holds s1 := by
    refine h.form_built (i := i) (c := built) (v := v) hL hc ?_ ?_ hg ?_ ?_ (fun j hj => ?_) ?_
    · rw [getElem_fin_congr s.table entry]; exact hv
    · simp only [s1, State.modStation, State.setStation_table, ht, entry]
    · simp [s1, State.modStation]
    · simp [s1, State.modStation, holdsForm]
    · simp only [s1, State.modStation]
      rw [State.station_setStation_ne _ _ hj, State.station_eq_of_stations hs]
    · rw [entry]; exact form
  have h2 : L.Holds s2 := h1.of_same (State.setFull_same _ _)
  split
  · exact h2
  · exact h2.of_same (State.release_same _)

theorem FormRule.Holds.takeCompose (hL : L.Closed) (h : L.Holds s) (r : ComposeRec) :
    L.Holds (s.takeCompose i g r) := by
  unfold State.takeCompose
  cases he : s.liveEntry r.id with
  | none => exact h.of_same (State.refuseRecord_same s _ _ _ _)
  | some e =>
    dsimp only
    obtain ⟨v, hv, -, hst⟩ := State.liveEntry_some he
    obtain ⟨n, hn⟩ := h.dropContext_live (i := i) hv hst
    have h0 : L.Holds ((s.dropContext i).supersede i) := (h.dropContext hL).of_same (State.supersede_same _)
    have hc0 : (((s.dropContext i).supersede i).station i).ctx = none :=
      ((State.supersede_same (s.dropContext i)).ctx i).trans (State.dropContext_ctx s)
    have hv0 : ((s.dropContext i).supersede i).table[e] = some { v with useCount := n } := by
      rw [(State.supersede_same (s.dropContext i)).table]; exact hn
    generalize (s.dropContext i).supersede i = s0 at h0 hc0 hv0
    generalize hv1 : { v with useCount := n } = v0 at hv0
    have hst0 : v0.status = .live := by rw [← hv1]; exact hst
    have raised := State.raiseUse_eq hv0
    have fails := fun {t : State} (ht : SameForms (s0.raiseUse e) t) (hs : t.stations = (s0.raiseUse e).stations) k f =>
      h0.of_same (State.composeFails_same (g := g) (t := t) hv0 hst0 hc0 (by rw [ht.table, raised]; rfl)
        (by rw [ht.staging, raised]; rfl) (by rw [hs, raised]; rfl) k f)
    have taken := State.takeRows_same (s0.raiseUse e) r.rows.length
    have takenStations : ((s0.raiseUse e).takeRows r.rows.length).stations = (s0.raiseUse e).stations := by
      unfold State.takeRows; dsimp only; split <;> simp
    have hver : (s0.raiseUse e).versionAt e = { v0 with useCount := v0.useCount + 1 } :=
      State.versionAt_of_some (by rw [raised, State.setEntry_getElem, if_pos rfl])
    split
    · exact fails (.refl _) rfl _ _
    rename_i hrows
    split
    · exact fails (.refl _) rfl _ _
    split
    · exact fails taken takenStations _ _
    · rename_i c hb
      have hentry := buildContext_entry hb
      subst hentry
      refine h0.composeSucceeds hL hc0 hv0 (by rw [taken.table, raised]; rfl) (by rw [taken.staging, raised]; rfl)
        (by rw [takenStations, raised]; rfl) (by rw [hver] at hrows; exact Nat.not_lt.mp hrows) ?_
      have : ((s0.raiseUse c.entry).takeRows r.rows.length).versionAt c.entry = (s0.raiseUse c.entry).versionAt c.entry := by
        simp only [State.versionAt, taken.table]
      rw [this]
      exact hb

theorem FormRule.Holds.takeFill (hL : L.Closed) (h : L.Holds s) (l : List FillEntry) (u m : Bool) :
    L.Holds (s.takeFill i g l u m) := by
  unfold State.takeFill
  split
  · exact h.of_same (State.refuseRecord_same s _ _ _ _)
  · rename_i c hc
    obtain ⟨_, -, hv⟩ := h.version_of_form hc
    have closed : L.Holds (s.closeWork i ((s.openWork i c).fill l u m).1) :=
      h.closeWork hc (Work.fill_keeps _ l u m).entry (Work.fill_holdsForm (h.store.1 i (by simp [hc])) l u m)
        (hL.fill l u m (w := s.openWork i c) hv (h.forms i c hc))
    split
    · rename_i e
      rw [e] at closed
      exact closed.of_same (State.refuseRecord_same _ _ _ _ _)
    · rename_i e
      rw [e] at closed
      exact closed.of_same (State.place_same _ _ _)

theorem FormRule.Holds.takeUnlock (hL : L.Closed) (h : L.Holds s) : L.Holds (s.takeUnlock i g) := by
  unfold State.takeUnlock
  split
  · rename_i hc
    exact h.of_same ((State.openBlank_same s hc).trans (State.doneRecord_same _ _))
  · exact (h.act hL.allows_unlock).of_same (State.doneRecord_same _ _)
  · exact h.of_same (State.refuseRecord_same s _ _ _ _)

theorem FormRule.Holds.takeResetModified (hL : L.Closed) (h : L.Holds s) : L.Holds (s.takeResetModified i g) := by
  unfold State.takeResetModified
  split
  · rename_i c hc
    refine FormRule.Holds.of_same ?_ (State.doneRecord_same _ _)
    refine h.transfer rfl rfl (fun j => ?_) (fun j hj => ?_)
    · rw [State.modStation, State.station_setStation]
      split
      · rename_i e
        exact .inr ⟨c, _, e ▸ hc, rfl, rfl, hL.modifiedCleared (h.forms i c hc)⟩
      · exact .inl rfl
    · rw [State.modStation, State.station_setStation] at hj ⊢
      split at hj
      · rename_i e
        rw [if_pos e]
        exact h.store.1 i (by simp [hc])
      · rename_i e
        rw [if_neg e]
        exact h.store.1 j hj
  · exact h.of_same (State.refuseRecord_same s _ _ _ _)

theorem FormRule.Holds.takeRelease (hL : L.Closed) (h : L.Holds s) : L.Holds (s.takeRelease i g) := by
  unfold State.takeRelease
  split
  · extract_lets s1 s2 s3
    have h1 : L.Holds s1 := (h.dropContext hL).of_same (State.supersede_same _)
    have hc1 : (s1.station i).ctx = none :=
      ((State.supersede_same (s.dropContext i)).ctx i).trans (State.dropContext_ctx s)
    have h12 : SameForms s1 s2 := State.setStation_same s1 rfl (fun hc => by simp [hc1] at hc)
    have h13 : SameForms s1 s3 := h12.trans (State.setFull_same _ _)
    split
    · exact h1.of_same (h13.trans (State.endReleasing_same _ (by rw [h13.ctx, hc1])))
    · exact h1.of_same h13
  · rename_i hc
    exact h.of_same ((State.openBlank_same s hc).trans (State.doneRecord_same _ _))

theorem FormRule.Holds.takeRecord (hL : L.Closed) (h : L.Holds s) (q : Queued) : L.Holds (s.takeRecord i q) := by
  unfold State.takeRecord
  split
  · exact h.takeCompose hL _
  · exact h.takeFill hL _ _ _
  · exact h.of_same (State.takeNote_same s _ _)
  · exact h.of_same (State.takeLock_same s)
  · exact h.takeUnlock hL
  · exact h.takeResetModified hL
  · exact h.of_same (State.takeRead_same s)
  · exact h.takeRelease hL

theorem FormRule.Holds.takeUpTo (hL : L.Closed) (h : L.Holds s) (fuel : Nat) : L.Holds (State.takeUpTo i fuel s) := by
  induction fuel generalizing s with
  | zero => exact h
  | succ n ih =>
    unfold State.takeUpTo
    split
    · exact h
    split
    · exact h
    · exact ih ((h.of_same (State.modStation_same s (by intro _; rfl) (by intro _; rfl))).takeRecord hL _)

theorem FormRule.Holds.takeWaiting (hL : L.Closed) (h : L.Holds s) : L.Holds (s.takeWaiting i) := h.takeUpTo hL _

theorem FormRule.Holds.finishReleasing (hL : L.Closed) (h : L.Holds s) (hc : (s.station i).ctx = none) :
    L.Holds (s.finishReleasing i) :=
  (h.of_same (State.endReleasing_same s hc)).takeWaiting hL

theorem FormRule.Holds.endComposing (hL : L.Closed) (h : L.Holds s) : L.Holds (s.endComposing i) := by
  unfold State.endComposing
  extract_lets st s1 s2
  have h1 : L.Holds s1 := by
    simp only [s1]
    split
    · exact h.act hL.allows_openKeyboard
    · exact h.of_same (State.setLock_same s _ (.inl rfl))
  have h2 : L.Holds s2 := h1.of_same (State.modStation_same _ (by intro _; rfl) (by intro _; rfl))
  clear_value st
  split
  · exact h2.of_same (State.place_same _ _ _)
  · exact h2

theorem FormRule.Holds.markerRendered (hL : L.Closed) (h : L.Holds s) : L.Holds (s.markerRendered i) := by
  unfold State.markerRendered
  extract_lets s1
  have h1 : L.Holds s1 := h.of_same (State.modPaint_same s _)
  split
  · exact h1.endComposing hL
  · rename_i hst
    exact h1.finishReleasing hL (h1.ctx_none (by rw [hst]; rfl))
  · exact h1

theorem FormRule.Holds.arriveStation (hL : L.Closed) (h : L.Holds s) (r : StationRecord) :
    L.Holds (s.arriveStation i r g) := by
  unfold State.arriveStation
  split
  · exact h.of_same (State.refuseRecord_same s _ _ _ _)
  split
  · exact h.of_same (State.refuseRecord_same s _ _ _ _)
  · exact (h.of_same (State.modStation_same s (by intro _; rfl) (by intro _; rfl))).takeWaiting hL

theorem FormRule.Holds.deliverKey (hL : L.Closed) (h : L.Holds s) (k : Byte) : L.Holds (State.deliverKey i s k) := by
  unfold State.deliverKey
  split
  · exact h.act (hL.allows_applyKey k)
  · exact h.of_same (State.joinTypeAhead_same s k)
  · split
    · exact h.act hL.allows_resetError
    · exact h
  · exact h
  · split
    · exact h.of_same (State.latchBlank_same s k)
    · exact h
  · exact h.of_same (State.joinTypeAhead_same s k)
  · exact h.of_same (State.joinTypeAhead_same s k)
  · exact h.of_same (State.joinTypeAhead_same s k)
  · exact h
  · exact h

theorem FormRule.Holds.lineCheckError (h : L.Holds s) : L.Holds (s.lineCheckError i) := by
  unfold State.lineCheckError
  split
  · exact h.act (FormRule.allows_operatorError _)
  · exact h.act (FormRule.allows_operatorError _)
  · exact h

theorem FormRule.Holds.endSnapshotFreeze (hL : L.Closed) (h : L.Holds s) : L.Holds (s.endSnapshotFreeze i) := by
  unfold State.endSnapshotFreeze
  dsimp only
  split
  · exact (h.act hL.allows_openKeyboard).takeWaiting hL
  · exact h.takeWaiting hL

end

end Sys2Proof.Machine

/-! PROOFS. The walk over the commands, second part: the loop, the Template Store, the Control Unit, the resets and a
step. -/

namespace Sys2Proof.Machine

variable {L : FormRule} {i : StationId} {g : GenId}

theorem FormRule.Holds.foldl {α : Type} {f : State → α → State} (hf : ∀ s x, L.Holds s → L.Holds (f s x)) (l : List α)
    {s : State} (h : L.Holds s) : L.Holds (l.foldl f s) := by
  induction l generalizing s with
  | nil => exact h
  | cons x l ih => exact ih (hf s x h)

theorem SameForms.foldl {α : Type} {f : State → α → State} (hf : ∀ s x, SameForms s (f s x)) (l : List α)
    (s : State) : SameForms s (l.foldl f s) := by
  induction l generalizing s with
  | nil => exact .refl s
  | cons x l ih => exact (hf s x).trans (ih _)

section
variable {s : State}

/-! ### The loop (LoopControl.lean) -/

theorem FormRule.Holds.stopStation (hL : L.Closed) (h : L.Holds s) (j : StationId) : L.Holds (s.stopStation j) := by
  unfold State.stopStation
  split
  · exact h
  extract_lets s1 st s2
  have h1 : L.Holds s1 := h.of_same (State.modLink_same s _)
  have h2 : L.Holds s2 := h1.of_same (State.modPaint_same _ _)
  split
  · exact h1.of_same (State.setFull_same _ _)
  split
  · rename_i hst
    have hc1 : (s1.station j).ctx = none := h1.ctx_none (by rw [eq_of_beq hst]; rfl)
    exact h2.finishReleasing hL (((State.modPaint_same s1 _).ctx j).trans hc1)
  · exact h2

theorem FormRule.Holds.withLoop (h : L.Holds s) (l : Loop) : L.Holds { s with loop := l } :=
  h.of_same (.of_stations rfl rfl rfl)

theorem FormRule.Holds.raise (h : L.Holds s) (e : Event) : L.Holds (s.raise e) := h.of_same (State.raise_same s e)

theorem FormRule.Holds.stopEffect (hL : L.Closed) (h : L.Holds s) : L.Holds (s.stopEffect g) := by
  unfold State.stopEffect
  extract_lets old stopped
  have h1 : L.Holds stopped := h.withLoop _
  exact (FormRule.Holds.foldl (fun _ j hs => hs.stopStation hL j) _ h1).of_same (State.place_same _ _ _)

theorem FormRule.Holds.applyPendingStop (hL : L.Closed) (h : L.Holds s) : L.Holds s.applyPendingStop := by
  unfold State.applyPendingStop
  split
  · exact h.stopEffect hL
  · exact h

theorem FormRule.Holds.endVisit (hL : L.Closed) (h : L.Holds s) : L.Holds (s.endVisit i) :=
  (h.withLoop _).applyPendingStop hL

theorem FormRule.Holds.loopStop (hL : L.Closed) (h : L.Holds s) : L.Holds (s.loopStop g) := by
  unfold State.loopStop
  split
  · exact h.of_same (State.refuseControl_same s _ _)
  · exact h.stopEffect hL
  · split
    · exact h.of_same (State.refuseControl_same s _ _)
    split
    · exact h.stopEffect hL
    · exact h.of_same (.of_stations (by rfl) (by rfl) (by rfl))

theorem getElem_mapVec {α β : Type} {n : Nat} (f : α → β) (v : Vector α n) (k : Fin n) : (mapVec f v)[k] = f v[k] := by
  simp [mapVec, Fin.getElem_fin]

theorem State.startLoop_same (s : State) (a b c : Nat) : SameForms s (s.startLoop a b c) := by
  unfold State.startLoop
  extract_lets started
  have h : SameForms s started := by
    have at_station : ∀ j, started.station j = { s.station j with link := (s.station j).link.map LoopRecord.started } :=
      fun j => getElem_mapVec _ s.stations j
    exact ⟨rfl, rfl, fun j => by rw [at_station], fun j _ hs => by rw [at_station]; exact hs⟩
  split
  · exact h.trans (State.raise_same _ _)
  · exact h

theorem State.loopStart_same (s : State) (a b c : Nat) : SameForms s (s.loopStart a b c g) := by
  unfold State.loopStart
  split
  · exact State.refuseControl_same s _ _
  split
  · exact State.refuseControl_same s _ _
  · exact (State.startLoop_same s a b c).trans (State.place_same _ _ _)

theorem State.cutVisit_same (s : State) : SameForms s s.cutVisit := by
  unfold State.cutVisit
  split
  · split
    · exact State.resync_same s
    all_goals exact .refl s
  · exact .refl s

theorem FormRule.Holds.hold (hL : L.Closed) (h : L.Holds s) : L.Holds s.hold := by
  unfold State.hold
  extract_lets cut old ended
  have h1 : L.Holds ended := (h.of_same (State.cutVisit_same s)).withLoop _
  clear_value ended
  split
  · exact h1.stopEffect hL
  · exact (h1.withLoop _).raise _

theorem FormRule.Holds.holdAsserted (hL : L.Closed) (h : L.Holds s) : L.Holds s.holdAsserted := by
  unfold State.holdAsserted
  extract_lets held
  have h0 : L.Holds held := h.of_same (.of_stations rfl rfl rfl)
  split
  · exact h0.hold hL
  · exact h0
  · exact h0

theorem FormRule.Holds.holdDeasserted (h : L.Holds s) : L.Holds s.holdDeasserted := by
  unfold State.holdDeasserted
  extract_lets released
  have h0 : L.Holds released := h.of_same (.of_stations rfl rfl rfl)
  split
  · exact (h0.withLoop _).raise _
  · exact h0
  · exact h0

theorem State.openVisit_same (s : State) (j : StationId) (f : LoopFrame) : SameForms s (s.openVisit j f) :=
  .of_stations rfl rfl rfl

theorem State.visit_same (s : State) (j : StationId) : SameForms s (s.visit j) := by
  unfold State.visit
  dsimp only
  split
  · split
    · exact (State.setStation_same s (by rfl) (by intro _ h; exact h)).trans (State.openVisit_same _ _ _)
    · exact .of_stations (by rfl) (by rfl) (by rfl)
  · exact .of_stations (by rfl) (by rfl) (by rfl)

theorem State.startVisit_same (s : State) : SameForms s s.startVisit := by
  unfold State.startVisit
  split
  · exact State.visit_same s _
  · exact .refl s

theorem State.endFrame_same (s : State) : SameForms s s.endFrame := by
  unfold State.endFrame
  split
  · split
    · exact .refl s
    · dsimp only
      split
      · exact .of_stations (by rfl) (by rfl) (by rfl)
      · exact (State.modLink_same s _).trans (.of_stations (by rfl) (by rfl) (by rfl))
  · exact .refl s

theorem FormRule.Holds.goOffline (hL : L.Closed) (h : L.Holds s) : L.Holds (s.goOffline i) := by
  unfold State.goOffline
  extract_lets s1 s2
  have h2 : L.Holds s2 := (h.of_same (State.raise_same s _)).of_same (State.modLink_same _ _)
  split
  · rename_i hst
    exact h2.finishReleasing hL (h2.ctx_none (by rw [eq_of_beq hst]; rfl))
  · exact h2

theorem FormRule.Holds.miss (hL : L.Closed) (h : L.Holds s) (x : Visit) : L.Holds (s.miss x) := by
  unfold State.miss
  split
  · split
    · unfold State.missOnline
      extract_lets s1 s2
      have h1 : L.Holds s1 := h.of_same (State.modLink_same s _)
      have h2 : L.Holds s2 := by
        simp only [s2]
        split
        · exact h1.of_same (State.resync_same _)
        · exact h1
      split
      · exact h2.goOffline hL
      · exact h2
    · exact h
  · exact h

theorem FormRule.Holds.checkNumbers (hL : L.Closed) (h : L.Holds s) (l : LoopRecord) (e r : Fin 8) :
    L.Holds (s.checkNumbers i l e r) := by
  unfold State.checkNumbers
  split
  · dsimp only
    split
    · exact (h.markerRendered hL).of_same (State.modLink_same _ _)
    · exact h.of_same (State.modLink_same s _)
  · exact h.of_same (State.resync_same s)

theorem FormRule.Holds.goodAnswer (hL : L.Closed) (h : L.Holds s) (x : Answer) : L.Holds (s.goodAnswer i x) := by
  unfold State.goodAnswer
  extract_lets s1 s2
  have h1 : L.Holds s1 := h.of_same (State.modLink_same s _)
  have h2 : L.Holds s2 := by
    simp only [s2]
    split
    · split
      · exact h1.checkNumbers hL _ _ _
      · exact h1.of_same (State.comeOnline_same _)
    · exact h1
  exact (FormRule.Holds.foldl (fun _ k hs => hs.deliverKey hL k) _ h2).endVisit hL

theorem FormRule.Holds.badAnswer (hL : L.Closed) (h : L.Holds s) (x : Visit) : L.Holds (s.badAnswer x) := by
  have h1 : L.Holds ((s.raise (.lineCheck x.station)).lineCheckError x.station) :=
    (h.of_same (State.raise_same s _)).lineCheckError
  exact (h1.miss hL x).endVisit hL

theorem FormRule.Holds.answered (hL : L.Closed) (h : L.Holds s) (x : Visit) (a : Option Answer) :
    L.Holds (s.answered x a) := by
  unfold State.answered
  split
  · exact h.goodAnswer hL _
  · exact h.badAnswer hL x

/-! ### The Template Store (Store.lean) -/

theorem State.freeEntry_some {e : EntryId} (h : s.freeEntry = some e) : s.table[e] = none := by
  simpa using List.find?_some h

/-- A change of the staged load alone, to one on a free entry. -/
theorem FormRule.Holds.restaged (h : L.Holds s) {o : Option Staging}
    (ho : ∀ x, o = some x → L.staged x ∧ s.table[x.entry] = none) : L.Holds { s with staging := o } := by
  obtain ⟨formsHeld, live, counts, held, _⟩ := h.store
  exact ⟨⟨formsHeld, live, counts, held, fun x hx => (ho x hx).2⟩, fun x hx => (ho x hx).1, h.versions, h.forms⟩

theorem FormRule.Holds.unstaged (h : L.Holds s) : L.Holds { s with staging := none } :=
  h.restaged (fun _ hx => nomatch hx)

theorem FormRule.Holds.loadBegin (hL : L.Closed) (h : L.Holds s) (p : LoadBegin) : L.Holds (s.loadBegin p g) := by
  unfold State.loadBegin
  split
  · exact h.of_same (State.refuseControl_same s _ _)
  split
  · exact h.of_same (State.refuseControl_same s _ _)
  rename_i hok
  split
  · exact h.of_same (State.refuseControl_same s _ _)
  rename_i e he
  split
  · exact h.of_same (State.refuseControl_same s _ _)
  · refine FormRule.Holds.of_same (h.restaged fun x hx => ?_) (State.place_same _ _ _)
    cases hx
    exact ⟨hL.begun (by simpa using hok), State.freeEntry_some he⟩

theorem Staging.add_entry {x y : Staging} {e : LoadEntry} (h : x.add e = some y) : y.entry = x.entry := by
  unfold Staging.add at h
  repeat' split at h
  all_goals cases h
  all_goals rfl

theorem Staging.addAll_law (hL : L.Closed) (l : List LoadEntry) {x y : Staging} (hx : L.staged x)
    (h : x.addAll l = some y) : L.staged y ∧ y.entry = x.entry := by
  induction l generalizing x with
  | nil => cases h; exact ⟨hx, rfl⟩
  | cons e rest ih =>
    unfold Staging.addAll at h
    split at h
    · rename_i z hz
      obtain ⟨hy, he⟩ := ih (hL.added hx hz) h
      exact ⟨hy, he.trans (Staging.add_entry hz)⟩
    · cases h

theorem FormRule.Holds.loadPart (hL : L.Closed) (h : L.Holds s) (l : List LoadEntry) : L.Holds (s.loadPart l g) := by
  unfold State.loadPart
  split
  · exact h.of_same (State.refuseControl_same s _ _)
  rename_i x hx
  split
  · rename_i y hy
    obtain ⟨hs, he⟩ := Staging.addAll_law hL l (h.staged x hx) hy
    obtain ⟨_, _, _, _, free⟩ := h.store
    refine FormRule.Holds.of_same (h.restaged fun z hz => ?_) (State.place_same _ _ _)
    cases hz
    exact ⟨hs, (getElem_fin_congr s.table he).trans (free x hx)⟩
  · exact h.unstaged.of_same (State.refuseControl_same _ _ _)

theorem State.retire_table {e : EntryId} {v : TemplateVersion} (hv : s.table[e] = some v) :
    (s.retire e).table
      = s.table.set e (if v.useCount = 0 then none else some { v with status := .retired }) := by
  rw [State.retire_eq hv]
  split <;> simp

theorem State.retire_only (s : State) (e : EntryId) : OnlyStation i s (s.retire e) := by
  unfold State.retire
  split
  · exact (State.setEntry_only s _ _).trans (State.freeIfUnused_only _ _)
  · exact .refl i s

theorem State.retireLive_only (s : State) (o : Option EntryId) : OnlyStation i s (s.retireLive o) := by
  unfold State.retireLive
  split
  · exact State.retire_only s _
  · exact .refl i s

/-- R19, R21: a version is retired, and freed when nothing uses it. -/
theorem FormRule.Holds.retire (hL : L.Closed) (h : L.Holds s) {e : EntryId} {v : TemplateVersion}
    (hv : s.table[e] = some v) : L.Holds (s.retire e) := by
  obtain ⟨formsHeld, live, counts, entries⟩ := h.store
  have only : (s.retire e).stations = s.stations ∧ (s.retire e).staging = s.staging := by
    rw [State.retire_eq hv]; split <;> simp
  have hs := State.station_eq_of_stations only.1
  have table := State.retire_table hv
  have k : EntryCounted s (s.retire e) e v :=
    .of_set hv table (by split; exacts [.inl rfl, .inr ⟨.retired, v.useCount, rfl⟩])
  have after : (s.retire e).table[e] = if v.useCount = 0 then none else some { v with status := .retired } := by
    rw [table, getElem_set_fin, if_pos rfl]
  generalize s.retire e = t at *
  obtain ⟨versions, forms⟩ := k.laws hL h
  have held : ∀ j d, (t.station j).ctx = some d → t.table[d.entry].isSome = true := fun j d hd => by
    rw [hs] at hd
    rcases eq_or_ne d.entry e with he | he
    · have used : v.useCount ≠ 0 := fun hz =>
        usesOf_eq_zero.mp ((counts e v hv).1.symm.trans hz) j d hd he
      rw [getElem_fin_congr t.table he, after, if_neg used]
      rfl
    · rw [k.others _ he]
      exact entries.1 j d hd
  refine ⟨⟨fun j hj => ?_, fun a b v' w' hv' hw' lv lw hid => ?_, fun f w hw => ?_, held, k.staging_free entries only.2⟩,
    fun x hx => h.staged x (only.2 ▸ hx), versions, fun j d hd => ?_⟩
  · rw [hs] at hj ⊢
    exact formsHeld j hj
  · have status : ∀ {f : EntryId} {w : TemplateVersion}, t.table[f] = some w → w.status = .live →
        s.table[f] = some w := by
      intro f w hw lw
      rcases eq_or_ne f e with rfl | hf
      · rw [after] at hw
        split at hw <;> cases hw
        cases lw
      · exact k.others f hf ▸ hw
    exact live a b v' w' (status hv' lv) (status hw' lw) lv lw hid
  · rw [usesOf_congr (s := s) (fun j => by rw [hs])]
    rcases eq_or_ne f e with rfl | hf
    · rw [after] at hw
      split at hw <;> cases hw
      rename_i hn
      exact ⟨(counts f v hv).1, fun _ => hn⟩
    · exact counts f w (k.others f hf ▸ hw)
  · exact forms _ d (held j d hd) (h.forms j d (hs j ▸ hd))

/-- R16, R19: after the LIVE version of an id has been retired, the id has none. -/
theorem State.retireLive_no_live (h : OneLive s) (id : Nat) :
    ∀ (e : EntryId) (v : TemplateVersion), (s.retireLive (s.liveEntry id)).table[e] = some v → v.id = id →
      v.status = .retired := by
  cases hl : s.liveEntry id with
  | none => exact State.liveEntry_none.mp hl
  | some f =>
    obtain ⟨w, hw, hid, hst⟩ := State.liveEntry_some hl
    intro e v hv he
    rw [State.retireLive, State.retire_table hw, getElem_set_fin] at hv
    split at hv
    · split at hv <;> cases hv
      rfl
    · rename_i hne
      cases hs : v.status with
      | retired => rfl
      | live => exact absurd (h e f v w hv hw hs hst (he.trans hid.symm)) hne

/-- R16: a complete and valid load becomes the LIVE version of its id. -/
theorem FormRule.Holds.install (hL : L.Closed) (h : L.Holds s) {x : Staging} (hx : s.staging = some x)
    (hok : x.offending = none) : L.Holds (s.install x g) := by
  unfold State.install
  extract_lets id version old retired s1 s2 s3
  refine FormRule.Holds.of_same ?_ (State.place_same _ _ _)
  have h1 : L.Holds s1 := by
    simp only [s1, old]
    cases hl : s.liveEntry id with
    | none => exact h
    | some e =>
      obtain ⟨v, hv, -, -⟩ := State.liveEntry_some hl
      exact h.retire hL hv
  have nolive : ∀ (e : EntryId) (v : TemplateVersion), s1.table[e] = some v → v.id = id → v.status = .retired :=
    State.retireLive_no_live h.store.2.1 id
  have staging : s1.staging = s.staging := (State.retireLive_only (i := 0) s old).staging
  obtain ⟨formsHeld, live, counts, held, free⟩ := h1.store
  have hfree : s1.table[x.entry] = none := free x (staging ▸ hx)
  have unused : ∀ j c, (s1.station j).ctx = some c → c.entry ≠ x.entry := fun j c hc he => by
    have := held j c hc
    rw [getElem_fin_congr s1.table he, hfree] at this
    cases this
  have at_entry : s3.table[x.entry] = some (x.toVersion version) := by
    simp only [s3, s2, State.setEntry_table, getElem_set_fin, if_true]
  have others : ∀ f, f ≠ x.entry → s3.table[f] = s1.table[f] := fun f hf => by
    simp only [s3, s2, State.setEntry_table, getElem_set_fin, if_neg hf]
  have hs : ∀ j, s3.station j = s1.station j := fun _ => rfl
  refine ⟨⟨formsHeld, fun a b v w hv hw lv lw hid => ?_, fun f w hw => ?_, fun j c hc => ?_, fun _ hy => (nomatch hy)⟩,
    fun _ hy => (nomatch hy), fun f w hw => ?_, fun j c hc => ?_⟩
  · have newest : ∀ {f : EntryId} {u : TemplateVersion}, s3.table[f] = some u → u.status = .live → u.id = id →
        f = x.entry := by
      intro f u hu lu hid
      by_contra hf
      rw [others f hf] at hu
      have := nolive f u hu hid
      simp [lu] at this
    rcases eq_or_ne a x.entry with rfl | ha
    · rw [at_entry] at hv
      cases hv
      exact (newest hw lw hid.symm).symm
    · rcases eq_or_ne b x.entry with rfl | hb
      · rw [at_entry] at hw
        cases hw
        exact newest hv lv hid
      · exact live a b v w (others a ha ▸ hv) (others b hb ▸ hw) lv lw hid
  · rcases eq_or_ne f x.entry with rfl | hf
    · rw [at_entry] at hw
      cases hw
      exact ⟨(usesOf_eq_zero.mpr unused).symm, fun hr => nomatch hr⟩
    · exact counts f w (others f hf ▸ hw)
  · rw [others _ (unused j c hc)]
    exact held j c hc
  · rcases eq_or_ne f x.entry with rfl | hf
    · rw [at_entry] at hw
      cases hw
      exact hL.installed (h.staged x hx) hok
    · exact h1.versions f w (others f hf ▸ hw)
  · have hv : s3.versionAt c.entry = s1.versionAt c.entry := by
      simp only [State.versionAt, others _ (unused j c hc)]
    rw [hv]
    exact h1.forms j c hc

theorem FormRule.Holds.loadEnd (hL : L.Closed) (h : L.Holds s) : L.Holds (s.loadEnd g) := by
  unfold State.loadEnd
  split
  · exact h.of_same (State.refuseControl_same s _ _)
  rename_i x hx
  split
  · exact h.unstaged.of_same (State.place_same _ _ _)
  · rename_i hok
    exact h.install hL hx hok

theorem FormRule.Holds.loadAbandon (h : L.Holds s) : L.Holds (s.loadAbandon g) := by
  unfold State.loadAbandon
  split
  · exact h.of_same (State.refuseControl_same s _ _)
  · exact h.unstaged.of_same (State.place_same _ _ _)

theorem FormRule.Holds.dropTemplate (hL : L.Closed) (h : L.Holds s) (id : Nat) : L.Holds (s.dropTemplate id g) := by
  unfold State.dropTemplate
  split
  · exact h.of_same (State.refuseControl_same s _ _)
  split
  · exact h.of_same (State.refuseControl_same s _ _)
  · rename_i e he
    obtain ⟨v, hv, -, -⟩ := State.liveEntry_some he
    exact (h.retire hL hv).of_same (State.place_same _ _ _)

/-! ### The Control Unit (Control.lean) -/

theorem FormRule.Holds.attachStation (h : L.Holds s) (n w : Nat) : L.Holds (s.attachStation n w g) := by
  unfold State.attachStation
  split
  · exact h.of_same (State.refuseControl_same s _ _)
  rename_i j _
  split
  · exact h.of_same (State.refuseControl_same s _ _)
  split
  · exact h.of_same (State.refuseControl_same s _ _)
  · rename_i hd
    have hst : (s.station j).state = .detached := by simpa [State.attached] using hd
    have hc : (s.station j).ctx = none := h.ctx_none (by rw [hst]; rfl)
    extract_lets looped
    have h1 : L.Holds looped := h.of_same (.of_stations (by rfl) (by rfl) (by rfl))
    exact (h1.of_same (State.setStation_same looped hc.symm (by intro hs; cases hs))).of_same (State.place_same _ _ _)

theorem State.detachDeferred_same (s : State) : SameForms s (s.detachDeferred i) := by
  unfold State.detachDeferred
  extract_lets st s1
  have h1 : SameForms s s1 := by
    simp only [s1]
    split
    · exact State.refuseRecord_same s _ _ _ _
    · exact .refl s
  clear_value st
  split
  · exact h1.trans (State.refuseRecord_same _ _ _ _ _)
  · exact h1

theorem State.detachSnapshot_same (s : State) : SameForms s (s.detachSnapshot i) := by
  unfold State.detachSnapshot
  split
  · exact (State.removeRecord_same s _).trans (State.refuseRecord_same _ _ _ _ _)
  · exact .refl s

theorem State.detachAttention_same (s : State) : SameForms s (s.detachAttention i) := by
  unfold State.detachAttention
  split
  · exact (State.removeRecord_same s _).trans (.of_stations (by rfl) (by rfl) (by rfl))
  · exact .refl s

theorem State.detachQueue_same (s : State) : SameForms s (s.detachQueue i) :=
  SameForms.foldl (fun s _ => State.refuseRecord_same s _ _ _ _) _ s

theorem FormRule.Holds.clearStation (hL : L.Closed) (h : L.Holds s) : L.Holds (s.clearStation i) := by
  unfold State.clearStation
  extract_lets s1 s2
  have h1 : L.Holds s1 := h.dropContext hL
  have h12 : SameForms s1 s2 := (((State.detachDeferred_same s1).trans (State.detachSnapshot_same _)).trans
    (State.detachAttention_same _)).trans (State.detachQueue_same _)
  have hc : (s2.station i).ctx = none := (h12.ctx i).trans (State.dropContext_ctx s)
  exact (h1.of_same h12).of_same (State.setStation_same s2 hc.symm (by intro hs; cases hs))

theorem FormRule.Holds.detachStation (hL : L.Closed) (h : L.Holds s) (n : Nat) : L.Holds (s.detachStation n g) := by
  unfold State.detachStation
  split
  · exact h.of_same (State.refuseControl_same s _ _)
  split
  · exact h.of_same (State.refuseControl_same s _ _)
  · rename_i j _ _
    have h1 : L.Holds ((s.clearStation j).answer g (.done detachKind)) :=
      (h.clearStation hL).of_same (State.place_same _ _ _)
    unfold State.endDetachedVisit
    split
    · split
      · exact h1.endVisit hL
      · exact h1
    · split
      · exact h1.applyPendingStop hL
      · exact h1

theorem State.setEvents_same (s : State) (m : Mask) : SameForms s (s.setEvents m g) :=
  (State.updateEvents_same s _ _).trans (State.place_same _ _ _)

theorem State.clearEvents_same (s : State) (m : Mask) (o : Option Mask) : SameForms s (s.clearEvents m o g) :=
  (State.updateEvents_same s _ _).trans (State.place_same _ _ _)

theorem State.queryStation_same (s : State) (n : Nat) : SameForms s (s.queryStation n g) := by
  unfold State.queryStation
  split <;> exact State.place_same s _ _

/-! ### The resets (Power.lean) -/

/-- A state without forms and without a staged load, its table holding unused LIVE versions of the table before. -/
theorem FormRule.Holds.emptied {t : State} (hL : L.Closed) (h : L.Holds s)
    (hs : ∀ j, t.station j = Station.detachedRecord) (hg : t.staging = none)
    (ht : ∀ (e : EntryId) (v : TemplateVersion), t.table[e] = some v →
      ∃ w, s.table[e] = some w ∧ w.status = .live ∧ v = { w with useCount := 0 }) : L.Holds t := by
  have none_held : ∀ j c, (t.station j).ctx ≠ some c := fun j c hc => by rw [hs] at hc; cases hc
  refine ⟨⟨fun j hj => ?_, fun a b v w hv hw lv lw hid => ?_, fun e v hv => ?_, fun j c hc => absurd hc (none_held j c),
      fun x hx => ?_⟩, fun x hx => ?_, fun e v hv => ?_, fun j c hc => absurd hc (none_held j c)⟩
  · obtain ⟨c, hc⟩ := Option.isSome_iff_exists.mp hj
    exact absurd hc (none_held j c)
  · obtain ⟨v', hv', lv', rfl⟩ := ht a v hv
    obtain ⟨w', hw', lw', rfl⟩ := ht b w hw
    exact h.store.2.1 a b v' w' hv' hw' lv' lw' hid
  · obtain ⟨w, -, lw, rfl⟩ := ht e v hv
    exact ⟨(usesOf_eq_zero.mpr fun j c hc => absurd hc (none_held j c)).symm, fun hr => nomatch lw.symm.trans hr⟩
  · rw [hg] at hx; cases hx
  · rw [hg] at hx; cases hx
  · obtain ⟨w, hw, _, rfl⟩ := ht e v hv
    exact hL.versionCounts w.status 0 (h.versions e w hw)

theorem getElem_replicate_fin {α : Type} {n : Nat} (x : α) (k : Fin n) : (Vector.replicate n x)[k] = x := by
  simp [Fin.getElem_fin]

theorem FormRule.Holds.startUp {r : State} (hL : L.Closed) (h : L.Holds s) : L.Holds r.startUp :=
  h.emptied hL (fun j => getElem_replicate_fin _ j) rfl (fun e v hv => by
    have : r.startUp.table[e] = none := getElem_replicate_fin _ e
    rw [this] at hv
    cases hv)

theorem FormRule.Holds.cleared (hL : L.Closed) (h : L.Holds s) : L.Holds s.cleared := by
  refine h.emptied hL (fun j => getElem_replicate_fin _ j) rfl (fun e v hv => ?_)
  have kept : s.cleared.table[e] = keptLive s.table[e] := by
    refine (getElem_mapVec keptLive s.cut.table e).trans ?_
    rw [(State.cut_same s).table]
  rw [kept] at hv
  cases hw : s.table[e] with
  | none => simp [hw, keptLive] at hv
  | some w =>
    cases lw : w.status with
    | retired => simp [hw, keptLive, lw] at hv
    | live =>
      simp only [hw, keptLive, lw, Option.some.injEq] at hv
      exact ⟨w, rfl, lw, hv.symm ▸ by rw [← lw]⟩

/-! ### A step -/

theorem FormRule.Holds.execControl (hL : L.Closed) (h : L.Holds s) (r : ControlRecord) : L.Holds (s.execControl r g) := by
  cases r with
  | loadBegin p => exact h.loadBegin hL p
  | loadPart entries => exact h.loadPart hL entries
  | loadEnd => exact h.loadEnd hL
  | loadAbandon => exact h.loadAbandon
  | dropTemplate id => exact h.dropTemplate hL id
  | attachStation n w => exact h.attachStation n w
  | detachStation n => exact h.detachStation hL n
  | loopStart a b c => exact h.of_same (State.loopStart_same s a b c)
  | loopStop => exact h.loopStop hL
  | queryComposer => exact h.of_same (State.place_same s _ _)
  | queryStation n => exact h.of_same (State.queryStation_same s n)
  | setEvents m => exact h.of_same (State.setEvents_same s m)
  | clearEvents m o => exact h.of_same (State.clearEvents_same s m o)
  | resetComposer => exact (h.cleared hL).raise _

theorem FormRule.Holds.routeFrame (hL : L.Closed) (h : L.Holds s) (f : TrunkFrame) : L.Holds (s.routeFrame f g) := by
  unfold State.routeFrame
  split
  · exact h.of_same (State.place_same s _ _)
  split
  · unfold State.routeControl
    split
    · exact h.execControl hL _
    · exact h.of_same (State.refuseControl_same s _ _)
  split
  · unfold State.routeStation
    split
    · exact h.arriveStation hL _
    · exact h.of_same (State.refuseRecord_same s _ _ _ _)
  · exact h.of_same (State.place_same s _ _)

theorem State.beginFrame_same (s : State) : SameForms s s.beginFrame := by
  unfold State.beginFrame
  repeat' split
  all_goals exact .of_stations (by rfl) (by rfl) (by rfl)

/-- R179: the arrival of a frame keeps a law that its meaning keeps. -/
theorem FormRule.Holds.arrive (h : L.Holds s) {f : State → GenId → State}
    (hf : ∀ s g, L.Holds s → L.Holds (f s g)) : L.Holds (s.arrive f) := by
  unfold State.arrive
  split
  · exact h
  · have hb : L.Holds s.beginFrame := h.of_same (State.beginFrame_same s)
    dsimp only
    split
    · exact hf _ _ (hb.of_same (.of_stations (by rfl) (by rfl) (by rfl)))
    · exact hb.of_same (.of_stations (by rfl) (by rfl) (by rfl))
    · exact hb

theorem FormRule.Holds.arriveRecord (hL : L.Closed) (h : L.Holds s) (j : StationId) (r : StationRecord) :
    L.Holds (s.arriveRecord j r) := h.arrive fun _ _ h => h.arriveStation hL r

theorem FormRule.Holds.endTransmission (hL : L.Closed) (h : L.Holds s) : L.Holds s.endTransmission := by
  unfold State.endTransmission
  split
  · extract_lets idle
    have h1 : L.Holds idle := h.of_same (.of_stations (by rfl) (by rfl) (by rfl))
    split
    · unfold State.endGeneral
      split
      · exact (h1.of_same (State.release_same _)).endSnapshotFreeze hL
      · exact h1.of_same (State.release_same _)
    · exact FormRule.Holds.takeWaiting hL (h1.of_same (.of_stations (by rfl) (by rfl) (by rfl)))
    · unfold State.endNotice
      split
      · exact h1.of_same (.of_stations (by rfl) (by rfl) (by rfl))
      · exact h1.of_same (.of_stations (by rfl) (by rfl) (by rfl))
      all_goals exact h1
  · exact h.of_same (.of_stations (by rfl) (by rfl) (by rfl))
  · exact h

theorem State.startTransmission_same (s : State) : SameForms s s.startTransmission := by
  unfold State.startTransmission
  split
  · dsimp only
    split <;> exact .of_stations (by rfl) (by rfl) (by rfl)
  · exact .refl s

theorem State.giveBack_same (s : State) : SameForms s s.giveBack := by
  unfold State.giveBack
  split <;> exact .of_stations (by rfl) (by rfl) (by rfl)

/-- Every command keeps a law of the forms. -/
theorem FormRule.Holds.exec (hL : L.Closed) (h : L.Holds s) {c : Instr} {t : State}
    (he : exec c s = .next t) : L.Holds t := by
  have awaited : ∀ {f : Visit → State}, (∀ x, L.Holds (f x)) →
      (match s.awaiting with
        | some x => Host.Outcome.next (f x)
        | none => .next s : Host.Outcome State Fault Refusal) = .next t → L.Holds t := by
    intro f hf ht
    split at ht <;> cases ht
    · exact hf _
    · exact h
  cases c with
  | goodAnswer e r keys => exact awaited (fun x => h.answered hL x _) he
  | badAnswer octets => exact awaited (fun x => h.answered hL x _) he
  | answerLineIdle => exact awaited (fun x => h.badAnswer hL x) he
  | windowExpiry => exact awaited (fun x => (h.miss hL x).endVisit hL) he
  | powerOn =>
    cases he
    exact FormRule.Holds.raise ((h.startUp (r := s) hL).of_same (.of_stations (by rfl) (by rfl) (by rfl))) _
  | resetInputAsserted =>
    cases he
    exact (h.startUp (r := s.cut) hL).of_same (.of_stations (by rfl) (by rfl) (by rfl))
  | resetInputReleased =>
    cases he
    unfold State.releaseReset
    split
    · exact FormRule.Holds.raise (h.of_same (.of_stations (by rfl) (by rfl) (by rfl))) _
    · exact h
  | loopHoldAsserted => cases he; exact h.holdAsserted hL
  | loopHoldDeasserted => cases he; exact h.holdDeasserted
  | firstOctet => cases he; exact h.of_same (State.beginFrame_same s)
  | frameRefused f => cases he; exact h.arrive fun _ _ h => h.routeFrame hL f
  | loadBegin p => cases he; exact h.arrive fun _ _ h => h.loadBegin hL p
  | loadPart entries => cases he; exact h.arrive fun _ _ h => h.loadPart hL entries
  | loadEnd => cases he; exact h.arrive fun _ _ h => h.loadEnd hL
  | loadAbandon => cases he; exact h.arrive fun _ _ h => h.loadAbandon
  | dropTemplate id => cases he; exact h.arrive fun _ _ h => h.dropTemplate hL id
  | attachStation n w => cases he; exact h.arrive fun _ _ h => h.attachStation n w
  | detachStation n => cases he; exact h.arrive fun _ _ h => h.detachStation hL n
  | loopStart a b d => cases he; exact h.arrive fun s _ h => h.of_same (State.loopStart_same s a b d)
  | loopStop => cases he; exact h.arrive fun _ _ h => h.loopStop hL
  | queryComposer => cases he; exact h.arrive fun s _ h => h.of_same (State.place_same s _ _)
  | queryStation n => cases he; exact h.arrive fun s _ h => h.of_same (State.queryStation_same s n)
  | setEvents m => cases he; exact h.arrive fun s _ h => h.of_same (State.setEvents_same s m)
  | clearEvents m o => cases he; exact h.arrive fun s _ h => h.of_same (State.clearEvents_same s m o)
  | resetComposer => cases he; exact h.arrive fun _ _ h => (h.cleared hL).raise _
  | transmissionStart => cases he; exact h.of_same (State.startTransmission_same s)
  | lastOctetTransmitted => cases he; exact h.endTransmission hL
  | visitStart => cases he; exact h.of_same (State.startVisit_same s)
  | frameTransmitted => cases he; exact h.of_same (State.endFrame_same s)
  | secondOctetNotStartPattern => cases he; exact h.of_same (State.giveBack_same s)
  | compose k c => cases he; exact h.arriveRecord hL k _
  | set k ref text => cases he; exact h.arriveRecord hL k _
  | appendRow k row => cases he; exact h.arriveRecord hL k _
  | insertRow k p row => cases he; exact h.arriveRecord hL k _
  | deleteRow k p => cases he; exact h.arriveRecord hL k _
  | tagRow k p tag => cases he; exact h.arriveRecord hL k _
  | cursor k ref => cases he; exact h.arriveRecord hL k _
  | clearModified k entries u => cases he; exact h.arriveRecord hL k _
  | note k a text => cases he; exact h.arriveRecord hL k _
  | lock k => cases he; exact h.arriveRecord hL k _
  | unlock k => cases he; exact h.arriveRecord hL k _
  | resetModified k => cases he; exact h.arriveRecord hL k _
  | read k => cases he; exact h.arriveRecord hL k _
  | release k => cases he; exact h.arriveRecord hL k _
  | recordJoinsQueue k r => cases he; exact h.arriveRecord hL k _

/-- Every step keeps a law of the forms. -/
theorem FormRule.Holds.step (hL : L.Closed) (h : L.Holds s) {t : State} (ht : step s = .next t) : L.Holds t := by
  unfold Machine.step at ht
  split at ht
  · exact FormRule.Holds.exec hL (h.of_same (.of_stations (by rfl) (by rfl) (by rfl))) ht
  · cases ht
    exact h

end

/-! ### The Template Store alone -/

/-- The rule that says nothing of loads, versions and forms: what holds with it is the law of the Template Store. -/
def FormRule.storeOnly : FormRule := { staged := fun _ => True, version := fun _ => True, form := fun _ _ => True }

theorem FormRule.storeOnly_closed : FormRule.storeOnly.Closed := by
  constructor <;> intros <;> trivial

theorem FormRule.storeOnly_holds {s : State} : FormRule.storeOnly.Holds s ↔ StoreLaw s :=
  ⟨fun h => h.store, fun h => ⟨h, fun _ _ => trivial, fun _ _ _ => trivial, fun _ _ _ => trivial⟩⟩

/-- Settles O56: the walk over the commands, for the rule that says nothing but the law of the Template Store. -/
theorem stepKeepsTemplateStore : Obligations.StepKeepsTemplateStore := by
  intro s t h ht
  exact FormRule.storeOnly_holds.mp ((FormRule.storeOnly_holds.mpr h).step FormRule.storeOnly_closed ht)

end Sys2Proof.Machine

/-! PROOFS. The validity of a load (R4 to R10, R15): the model's checks of an entry say what the rules say of it, and the
search for the first entry that fails finds the place up to which the load is sound. -/

namespace Sys2Proof.Machine

/-! ### Entries judged against the entries before them -/

/-- Every entry of a list passes its test against the entries before it. -/
def AllOk {α : Type} (ok : List α → α → Bool) (l : List α) : Prop :=
  ∀ n x, l[n]? = some x → ok (l.take n) x = true

section
variable {α : Type} {ok : List α → α → Bool}

theorem allOk_nil : AllOk ok [] := fun n x h => by simp at h

theorem allOk_concat {l : List α} {x : α} : AllOk ok (l ++ [x]) ↔ AllOk ok l ∧ ok l x = true := by
  constructor
  · refine fun h => ⟨fun n y hy => ?_, ?_⟩
    · obtain ⟨hn, -⟩ := List.getElem?_eq_some_iff.mp hy
      have := h n y (by rw [List.getElem?_append_left hn, hy])
      rwa [List.take_append_of_le_length hn.le] at this
    · have := h l.length x (by simp)
      rwa [List.take_left] at this
  · rintro ⟨h, hx⟩ n y hy
    obtain ⟨hn, -⟩ := List.getElem?_eq_some_iff.mp hy
    rw [List.length_append, List.length_singleton] at hn
    rcases Nat.lt_succ_iff_lt_or_eq.mp hn with hn | rfl
    · rw [List.getElem?_append_left hn] at hy
      rw [List.take_append_of_le_length hn.le]
      exact h n y hy
    · rw [List.getElem?_concat_length] at hy
      cases hy
      rwa [List.take_left]

theorem AllOk.of_append {l m : List α} (h : AllOk ok (l ++ m)) : AllOk ok l := by
  induction m using List.reverseRecOn with
  | nil => simpa using h
  | append_singleton m x ih =>
    rw [← List.append_assoc] at h
    exact ih (allOk_concat.mp h).1

theorem AllOk.take {l : List α} (h : AllOk ok l) (n : Nat) : AllOk ok (l.take n) :=
  AllOk.of_append (m := l.drop n) (by rwa [List.take_append_drop])

/-- The search finds nothing exactly when every entry passes. -/
theorem firstBad_eq_none {k : Nat} {earlier l : List α} (he : AllOk ok earlier) :
    firstBad ok k earlier l = none ↔ AllOk ok (earlier ++ l) := by
  induction l generalizing k earlier with
  | nil => simpa [firstBad] using he
  | cons x rest ih =>
    have split_off : earlier ++ x :: rest = (earlier ++ [x]) ++ rest := by simp
    unfold firstBad
    split
    · rename_i hx
      rw [split_off]
      exact ih (allOk_concat.mpr ⟨he, hx⟩)
    · rename_i hx
      simp only [reduceCtorEq, false_iff]
      intro h
      rw [split_off] at h
      exact hx (allOk_concat.mp h.of_append).2

/-- The entry the search finds is the first that fails. -/
theorem firstBad_eq_some {k j : Nat} {earlier l : List α} (he : AllOk ok earlier)
    (h : firstBad ok k earlier l = some j) :
    ∃ n < l.length, j = k + n ∧ AllOk ok (earlier ++ l.take n) ∧ ¬AllOk ok (earlier ++ l.take (n + 1)) := by
  induction l generalizing k earlier with
  | nil => cases h
  | cons x rest ih =>
    unfold firstBad at h
    split at h
    · rename_i hx
      obtain ⟨n, hn, rfl, hgood, hbad⟩ := ih (allOk_concat.mpr ⟨he, hx⟩) h
      refine ⟨n + 1, by simpa using hn, by omega, ?_, ?_⟩
      · simpa using hgood
      · simpa using hbad
    · rename_i hx
      cases h
      exact ⟨0, by simp, rfl, by simpa using he, fun hall => hx (allOk_concat.mp (by simpa using hall)).2⟩

end

/-- A transitive order on a list holds throughout when it holds between neighbours. -/
theorem pairwise_concat_of_last {α : Type} {r : α → α → Prop} (trans : ∀ x y z, r x y → r y z → r x z) {l : List α}
    (hl : l.Pairwise r) {x : α} (h : ∀ e, l.getLast? = some e → r e x) : ∀ y ∈ l, r y x := by
  induction l using List.reverseRecOn with
  | nil => simp
  | append_singleton m e _ =>
    have he : r e x := h e (by simp)
    intro y hy
    rcases List.mem_append.mp hy with hy | hy
    · exact trans y e x ((List.pairwise_append.mp hl).2.2 y hy e (by simp)) he
    · rw [List.mem_singleton.mp hy]
      exact he

/-! ### One entry -/

theorem Earlier.trans {a b c d e f : Nat} (h : Earlier a b c d) (k : Earlier c d e f) : Earlier a b e f := by
  unfold Earlier at *; omega

theorem colsMeet_eq_false {a b c d : Nat} : colsMeet a b c d = false ↔ Apart a b c d := by
  simp only [colsMeet, Bool.and_eq_false_iff, decide_eq_false_iff_not, Apart]; omega

theorem apart_comm {a b c d : Nat} : Apart a b c d ↔ Apart c d a b := or_comm

theorem isBandRow_eq_true {grp : Group} {row : Nat} : isBandRow grp row = true ↔ InBand grp row := by
  simp [isBandRow, InBand]

theorem isBandRow_eq_false {grp : Group} {row : Nat} : isBandRow grp row = false ↔ ¬InBand grp row := by
  rw [← isBandRow_eq_true, Bool.not_eq_true]

/-- R60: the characters of an unsigned part are digits and the period. -/
theorem parseMagnitude_chars {f : NumForm} {t : Text} (h : (parseMagnitude f t).isSome = true) :
    ∀ c ∈ t, isDigit c = true ∨ c = period := by
  intro c hc
  rw [← List.takeWhile_append_dropWhile (p := isDigit) (l := t)] at hc
  rcases List.mem_append.mp hc with hc | hc
  · exact .inl (List.mem_takeWhile_imp hc)
  · unfold parseMagnitude at h
    dsimp only at h
    split at h
    · rename_i hd
      rw [hd] at hc
      cases hc
    · rename_i x fraction hd
      rw [hd] at hc
      split at h
      · cases h
      · rename_i hn
        simp only [Bool.or_eq_true, not_or, Bool.not_eq_true, bne_eq_false_iff_eq, Bool.not_eq_false'] at hn
        obtain ⟨⟨⟨⟨⟨hx, -⟩, hall⟩, -⟩, -⟩, -⟩ := hn
        rcases List.mem_cons.mp hc with rfl | hc
        · exact .inr hx
        · exact .inl (List.all_eq_true.mp hall c hc)

/-- A text without its leading and trailing spaces keeps every other character. -/
theorem mem_trim {t : Text} {c : Byte} (hc : c ∈ t) : c = space ∨ c ∈ trim t := by
  have dropped : ∀ {l : Text}, c ∈ l → c = space ∨ c ∈ l.dropWhile (· == space) := by
    intro l h
    rw [← List.takeWhile_append_dropWhile (p := (· == space)) (l := l)] at h
    rcases List.mem_append.mp h with h | h
    · exact .inl (by simpa using List.mem_takeWhile_imp h)
    · exact .inr h
  rcases dropped hc with h | h
  · exact .inl h
  · rcases dropped (List.mem_reverse.mpr h) with h | h
    · exact .inl h
    · exact .inr (List.mem_reverse.mpr h)

theorem isComposerChar_of_isDigit {c : Byte} (h : isDigit c = true) : isComposerChar c = true := by
  simp only [isDigit, isComposerChar, Bool.and_eq_true, decide_eq_true_eq] at *
  omega

/-- R60: what a well-formed numeric entry is: spaces alone, a magnitude, or in a signed field a negative one. -/
theorem parseEntry_eq_some {f : NumForm} {t : Text} {o : Option Int} (h : parseEntry f t = some o) :
    t.length ≤ f.width ∧ ((trim t = [] ∧ o = none) ∨ (∃ m : Nat, parseMagnitude f (trim t) = some m ∧ o = some (m : Int))
      ∨ ∃ (body : Text) (m : Nat), trim t = hyphen :: body ∧ f.signed = true ∧ parseMagnitude f body = some m
        ∧ o = some (-(m : Int))) := by
  unfold parseEntry at h
  split at h
  · cases h
  rename_i hlen
  refine ⟨Nat.not_lt.mp hlen, ?_⟩
  split at h
  · rename_i ht
    cases h
    exact .inl ⟨ht, rfl⟩
  · rename_i x body ht
    split at h
    · rename_i hx
      split at h
      · rename_i hs
        cases hm : parseMagnitude f body with
        | none => simp [hm] at h
        | some m => exact .inr (.inr ⟨body, m, by rw [ht, eq_of_beq hx], hs, hm, by simpa [hm] using h.symm⟩)
      · cases h
    · cases hm : parseMagnitude f (x :: body) with
      | none => simp [hm] at h
      | some m => exact .inr (.inl ⟨m, by rw [ht, hm], by simpa [hm] using h.symm⟩)

/-- R60: a well-formed numeric entry is no longer than its field and has composer characters only. -/
theorem parseEntry_isSome {f : NumForm} {t : Text} (h : (parseEntry f t).isSome = true) :
    t.length ≤ f.width ∧ t.all isComposerChar = true := by
  obtain ⟨o, ho⟩ := Option.isSome_iff_exists.mp h
  obtain ⟨hlen, hparts⟩ := parseEntry_eq_some ho
  have body : ∀ {b : Text} {m : Nat}, parseMagnitude f b = some m → ∀ c ∈ b, isComposerChar c = true := by
    intro b m hb c hcb
    rcases parseMagnitude_chars (by rw [hb]; rfl) c hcb with hd | rfl
    · exact isComposerChar_of_isDigit hd
    · decide
  refine ⟨hlen, List.all_eq_true.mpr fun c hc => ?_⟩
  rcases mem_trim hc with rfl | hc
  · decide
  · rcases hparts with ⟨ht, -⟩ | ⟨m, hm, -⟩ | ⟨b, m, ht, -, hm, -⟩
    · rw [ht] at hc
      cases hc
    · exact body hm c hc
    · rw [ht] at hc
      rcases List.mem_cons.mp hc with rfl | hc
      · decide
      · exact body hm c hc

theorem limitOk_iff {f : NumForm} {o : Option Int} :
    limitOk f o = true ↔ ∀ m, o = some m → m.natAbs ≤ f.limit ∧ (f.signed = false → 0 ≤ m) := by
  cases o with
  | none => simp [limitOk]
  | some m => cases hs : f.signed <;> simp [limitOk, hs]

theorem limitsOrdered_iff {a b : Option Int} :
    limitsOrdered a b = true ↔ ∀ lo hi, a = some lo → b = some hi → lo ≤ hi := by
  cases a <;> cases b <;> simp [limitsOrdered]

/-- R6: the check of a numeric part, on a field no wider than 14. -/
theorem numericOk_iff {d : FieldDef} {p : NumericPart} (hp : numericPart d.kind = some p) (hw : d.width ≤ 14) :
    numericOk d p = true ↔ SoundNumber d p := by
  have form : numForm d = { width := d.width, signed := p.signed, scale := p.scale } := by simp only [numForm, hp]
  simp only [numericOk, form, Bool.and_eq_true, decide_eq_true_eq, limitOk_iff, limitsOrdered_iff, SoundNumber,
    NumForm.limit, NumForm.digits, gt_iff_lt]
  constructor
  · rintro ⟨⟨⟨⟨⟨⟨h1, -⟩, h3⟩, h4⟩, lo⟩, hi⟩, h7⟩
    exact ⟨hw, h1, h3, h4, fun m hm => hm.elim (lo m) (hi m), h7⟩
  · rintro ⟨-, h1, h3, h4, h5, h7⟩
    exact ⟨⟨⟨⟨⟨⟨h1, by omega⟩, h3⟩, h4⟩, fun m hm => h5 m (.inl hm)⟩, fun m hm => h5 m (.inr hm)⟩, h7⟩

theorem namesNumericRow_iff {rows : List FieldDef} {id : Nat} :
    namesNumericRow rows id = true ↔ NamesRowField rows id false := by
  simp only [namesNumericRow, List.any_eq_true, Bool.and_eq_true, beq_iff_eq, NamesRowField, Bool.false_eq_true,
    false_and, or_false]
  refine exists_congr fun d => and_congr_right fun _ => and_congr_right fun _ => ?_
  cases hk : d.kind <;> simp [isNumeric, hk]

theorem namesSource_iff {rows : List FieldDef} {id : Nat} :
    namesSource rows id = true ↔ NamesRowField rows id true := by
  simp only [namesSource, List.any_eq_true, Bool.and_eq_true, beq_iff_eq, NamesRowField, true_and]
  refine exists_congr fun d => and_congr_right fun _ => and_congr_right fun _ => ?_
  cases hk : d.kind <;> simp [isNumeric, isProduct, hk]

theorem placeOk_iff {grp : Group} {d : FieldDef} :
    placeOk grp d = true ↔ SoundRow grp d ∧ 1 ≤ d.col ∧ 1 ≤ d.width ∧ d.col + d.width ≤ 81 ∧ d.attr ≤ 4
      ∧ ((numericPart d.kind).isNone = true ∨ d.width ≤ 14) := by
  have row : (if d.rowRegion then d.row == 0 else 1 ≤ d.row && d.row ≤ 23 && !isBandRow grp d.row) = true
      ↔ SoundRow grp d := by
    cases hr : d.rowRegion <;> simp [SoundRow, hr, isBandRow_eq_false, and_assoc]
  simp only [placeOk, Bool.and_eq_true, Bool.or_eq_true, decide_eq_true_eq, row]
  constructor
  · rintro ⟨⟨⟨⟨⟨⟨⟨hrow, hcol⟩, -⟩, hwidth⟩, -⟩, hend⟩, hattr⟩, hnum⟩
    exact ⟨hrow, hcol, hwidth, hend, hattr, hnum⟩
  · rintro ⟨hrow, hcol, hwidth, hend, hattr, hnum⟩
    exact ⟨⟨⟨⟨⟨⟨⟨hrow, hcol⟩, by omega⟩, hwidth⟩, by omega⟩, hend⟩, hattr⟩, hnum⟩

theorem flagsOk_iff {d : FieldDef} : flagsOk d = true ↔
    (d.prot = true → d.mandatoryEntry = false ∧ d.mandatoryFill = false ∧ d.autoSkip = false) := by
  cases hp : d.prot <;> simp [flagsOk, hp, and_assoc]

theorem derivedOk_iff {d : FieldDef} {p : NumericPart} {part : DerivedPart} : derivedOk d p part = true ↔
    d.prot = true ∧ p.min = none ∧ p.max = none ∧ part.overflow ≤ 1 ∧ part.report ≤ 1 := by
  simp [derivedOk, and_assoc]

/-- R4 to R8: the checks of a definition by itself say what the rules say of it. -/
theorem fieldOk_iff {grp : Group} {refs : List FieldDef} {d : FieldDef} : fieldOk grp refs d = true ↔
    SoundField d ∧ SoundRow grp d ∧ SoundKind refs d ∧ SoundInitial d := by
  simp only [fieldOk, Bool.and_eq_true, decide_eq_true_eq, placeOk_iff, flagsOk_iff, SoundField]
  have kindInitial : (((numericPart d.kind).isNone = true ∨ d.width ≤ 14) ∧ kindOk refs d = true ∧ initialOk d = true)
      ↔ d.initial.length ≤ d.width ∧ SoundKind refs d ∧ SoundInitial d := by
    cases hk : d.kind with
    | text =>
      simp [kindOk, initialOk, SoundKind, SoundInitial, hk, numericPart, isComposerChar]
    | alpha =>
      simp [kindOk, initialOk, SoundKind, SoundInitial, hk, numericPart]
    | numeric p policy =>
      have form : numForm d = { width := d.width, signed := p.signed, scale := p.scale } := by
        simp only [numForm, numericPart, hk]
      have number := numericOk_iff (d := d) (p := p) (by simp only [numericPart, hk])
      simp only [kindOk, initialOk, SoundKind, SoundInitial, hk, numericPart, form, Bool.and_eq_true, Bool.or_eq_true,
        decide_eq_true_eq, Option.isNone_some, Bool.false_eq_true, false_or, List.isEmpty_iff]
      constructor
      · rintro ⟨hw, ⟨hn, hpol⟩, -, hi⟩
        refine ⟨?_, ⟨(number hw).mp hn, hpol⟩, hi.resolve_left⟩
        rcases hi with hi | hi
        · simp [hi]
        · exact (parseEntry_isSome hi).1
      · rintro ⟨-, ⟨hn, hpol⟩, hi⟩
        have hw : d.width ≤ 14 := hn.1
        rcases eq_or_ne d.initial [] with he | he
        · exact ⟨hw, ⟨(number hw).mpr hn, hpol⟩, by simp [he], .inl he⟩
        · exact ⟨hw, ⟨(number hw).mpr hn, hpol⟩, (parseEntry_isSome (hi he)).2, .inr (hi he)⟩
    | product p a b part =>
      have number := numericOk_iff (d := d) (p := p) (by simp only [numericPart, hk])
      simp only [kindOk, initialOk, SoundKind, SoundInitial, hk, numericPart, Bool.and_eq_true, derivedOk_iff,
        namesNumericRow_iff, Option.isNone_some, Bool.false_eq_true, false_or, List.isEmpty_iff]
      constructor
      · rintro ⟨hw, ⟨⟨⟨⟨hn, hp, hmin, hmax, ho, hr⟩, hrow⟩, ha⟩, hb⟩, hi⟩
        exact ⟨by simp [hi], ⟨(number hw).mp hn, hmin, hmax, hp, hrow, ho, hr, ha, hb⟩, hi⟩
      · rintro ⟨-, ⟨hn, hmin, hmax, hp, hrow, ho, hr, ha, hb⟩, hi⟩
        exact ⟨hn.1, ⟨⟨⟨⟨(number hn.1).mpr hn, hp, hmin, hmax, ho, hr⟩, hrow⟩, ha⟩, hb⟩, hi⟩
    | sum p source part =>
      have number := numericOk_iff (d := d) (p := p) (by simp only [numericPart, hk])
      simp only [kindOk, initialOk, SoundKind, SoundInitial, hk, numericPart, Bool.and_eq_true, derivedOk_iff,
        namesSource_iff, Option.isNone_some, Bool.false_eq_true, false_or, List.isEmpty_iff, Bool.not_eq_true']
      constructor
      · rintro ⟨hw, ⟨⟨⟨hn, hp, hmin, hmax, ho, hr⟩, hrow⟩, hs⟩, hi⟩
        exact ⟨by simp [hi], ⟨(number hw).mp hn, hmin, hmax, hp, hrow, ho, hr, hs⟩, hi⟩
      · rintro ⟨-, ⟨hn, hmin, hmax, hp, hrow, ho, hr, hs⟩, hi⟩
        exact ⟨hn.1, ⟨⟨⟨(number hn.1).mpr hn, hp, hmin, hmax, ho, hr⟩, hrow⟩, hs⟩, hi⟩
  tauto

/-- R9: the checks of a literal run by itself say what the rule says of it. -/
theorem literalOk_iff {grp : Group} {l : LiteralRun} : literalOk grp l = true ↔
    1 ≤ l.row ∧ l.row ≤ 23 ∧ ¬InBand grp l.row ∧ 1 ≤ l.col ∧ 1 ≤ l.text.length ∧ l.text.length ≤ 80
      ∧ l.col + l.text.length ≤ 81 ∧ l.attr ≤ 4 ∧ ∀ c ∈ l.text, 0x20 ≤ c.toNat ∧ c.toNat ≤ 0x7E := by
  simp only [literalOk, Bool.and_eq_true, decide_eq_true_eq, Bool.not_eq_true', isBandRow_eq_false, List.all_eq_true,
    isComposerChar]
  constructor
  · rintro ⟨⟨⟨⟨⟨⟨⟨⟨⟨h1, h2⟩, h3⟩, h4⟩, -⟩, h6⟩, h7⟩, h8⟩, h9⟩, h10⟩
    exact ⟨h1, h2, h3, h4, h6, h7, h8, h10, h9⟩
  · rintro ⟨h1, h2, h3, h4, h6, h7, h8, h10, h9⟩
    exact ⟨⟨⟨⟨⟨⟨⟨⟨⟨h1, h2⟩, h3⟩, h4⟩, by omega⟩, h6⟩, h7⟩, h8⟩, h9⟩, h10⟩

/-! ### The lists (R4, R9, R10) -/

/-- R10: a definition comes before another and shares no column with it. -/
def FieldBefore (d e : FieldDef) : Prop :=
  Earlier d.row d.col e.row e.col ∧ (d.row = e.row → Apart d.col d.width e.col e.width)

/-- R10: a literal run comes before another and shares no column with it. -/
def RunBefore (l m : LiteralRun) : Prop :=
  Earlier l.row l.col m.row m.col ∧ (l.row = m.row → Apart l.col l.text.length m.col m.text.length)

/-- The order of a list that gains an entry: a check against the last entry is one against all. -/
theorem pairwise_concat_iff {α : Type} {before apart : α → α → Prop}
    (trans : ∀ x y z, before x y → before y z → before x z) {l : List α} {x : α}
    (hl : l.Pairwise (fun a b => before a b ∧ apart a b)) :
    (l ++ [x]).Pairwise (fun a b => before a b ∧ apart a b)
      ↔ (∀ e, l.getLast? = some e → before e x) ∧ ∀ e ∈ l, apart e x := by
  have order : l.Pairwise before := hl.imp And.left
  simp only [List.pairwise_append, hl, List.pairwise_singleton, List.mem_singleton, forall_eq, true_and]
  constructor
  · exact fun h => ⟨fun e he => (h e (List.mem_of_getLast? he)).1, fun e he => (h e he).2⟩
  · rintro ⟨hlast, hapart⟩ e he
    exact ⟨pairwise_concat_of_last trans order hlast e he, hapart e he⟩

theorem fieldAfter_iff {o : Option FieldDef} {d : FieldDef} :
    fieldAfter o d = true ↔ ∀ e, o = some e → Earlier e.row e.col d.row d.col := by
  cases o <;> simp [fieldAfter, Pos.before_iff, Earlier]

theorem fieldsMeet_eq_false {d e : FieldDef} : fieldsMeet d e = false ↔
    (e.row = d.row → Apart e.col e.width d.col d.width) := by
  rw [apart_comm, eq_comm (a := e.row)]
  simp only [fieldsMeet, Bool.and_eq_false_imp, beq_iff_eq, colsMeet_eq_false]

theorem fieldBefore_concat {l : List FieldDef} {d : FieldDef} (hl : l.Pairwise FieldBefore) :
    (l ++ [d]).Pairwise FieldBefore ↔ (∀ e, l.getLast? = some e → Earlier e.row e.col d.row d.col)
      ∧ ∀ e ∈ l, e.row = d.row → Apart e.col e.width d.col d.width :=
  pairwise_concat_iff (before := fun d e : FieldDef => Earlier d.row d.col e.row e.col) (fun _ _ _ => Earlier.trans) hl

theorem runBefore_concat {l : List LiteralRun} {m : LiteralRun} (hl : l.Pairwise RunBefore) :
    (l ++ [m]).Pairwise RunBefore ↔ (∀ e, l.getLast? = some e → Earlier e.row e.col m.row m.col)
      ∧ ∀ e ∈ l, e.row = m.row → Apart e.col e.text.length m.col m.text.length :=
  pairwise_concat_iff (before := fun l m : LiteralRun => Earlier l.row l.col m.row m.col) (fun _ _ _ => Earlier.trans) hl

/-- R4 to R8, R10: the definitions of one list pass the checks exactly when they meet the rules. -/
theorem allOk_fields {grp : Group} {refs other l : List FieldDef} : AllOk (fieldEntryOk grp refs other) l ↔
    (∀ d ∈ l, fieldOk grp refs d = true) ∧ (∀ d ∈ l, ∀ e ∈ other, e.id ≠ d.id) ∧ (l.map FieldDef.id).Nodup
      ∧ l.Pairwise FieldBefore := by
  induction l using List.reverseRecOn with
  | nil => simp [allOk_nil]
  | append_singleton l d ih =>
    rw [allOk_concat, ih]
    have entry : fieldEntryOk grp refs other l d = true ↔ fieldOk grp refs d = true
        ∧ (∀ e, e ∈ other ∨ e ∈ l → e.id ≠ d.id) ∧ (∀ e ∈ l, e.row = d.row → Apart e.col e.width d.col d.width)
        ∧ ∀ e, l.getLast? = some e → Earlier e.row e.col d.row d.col := by
      simp only [fieldEntryOk, Bool.and_eq_true, Bool.not_eq_true', List.any_eq_false, Bool.not_eq_true,
        fieldsMeet_eq_false, fieldAfter_iff, beq_eq_false_iff_ne, List.mem_append, and_assoc]
    rw [entry, List.map_append, List.nodup_append]
    constructor
    · rintro ⟨⟨hok, hother, hids, hord⟩, hd, hnew, hapart, hlast⟩
      refine ⟨?_, ?_, ⟨hids, by simp, ?_⟩, (fieldBefore_concat hord).mpr ⟨hlast, hapart⟩⟩
      · simpa [or_imp, forall_and] using ⟨hok, hd⟩
      · simpa [or_imp, forall_and] using ⟨hother, fun e he => hnew e (.inl he)⟩
      · simpa using fun e he => hnew e (.inr he)
    · rintro ⟨hok, hother, ⟨hids, -, hnew⟩, hord⟩
      have hord' := (List.pairwise_append.mp hord).1
      obtain ⟨hlast, hapart⟩ := (fieldBefore_concat hord').mp hord
      refine ⟨⟨fun e he => hok e (by simp [he]), fun e he => hother e (by simp [he]), hids, hord'⟩,
        hok d (by simp), ?_, hapart, hlast⟩
      rintro e (he | he)
      · exact hother d (by simp) e he
      · exact hnew _ (List.mem_map_of_mem he) _ (by simp)

/-- R9, R10: the literal runs pass the checks exactly when they meet the rules. -/
theorem allOk_literals {grp : Group} {fixed : List FieldDef} {l : List LiteralRun} :
    AllOk (literalEntryOk grp fixed) l ↔ (∀ m ∈ l, literalOk grp m = true)
      ∧ (∀ d ∈ fixed, ∀ m ∈ l, d.row = m.row → Apart d.col d.width m.col m.text.length) ∧ l.Pairwise RunBefore := by
  induction l using List.reverseRecOn with
  | nil => simp [allOk_nil]
  | append_singleton l m ih =>
    rw [allOk_concat, ih]
    have entry : literalEntryOk grp fixed l m = true ↔ literalOk grp m = true
        ∧ (∀ d ∈ fixed, d.row = m.row → Apart d.col d.width m.col m.text.length)
        ∧ (∀ e ∈ l, e.row = m.row → Apart e.col e.text.length m.col m.text.length)
        ∧ ∀ e, l.getLast? = some e → Earlier e.row e.col m.row m.col := by
      cases hlast : l.getLast? <;>
        simp only [literalEntryOk, hlast, Bool.and_eq_true, Bool.not_eq_true', List.any_eq_false, beq_iff_eq, not_and,
          Bool.not_eq_true, colsMeet_eq_false, and_assoc, reduceCtorEq, false_implies, implies_true, Pos.before_iff,
          Option.some.injEq, forall_eq', Earlier]
    rw [entry]
    constructor
    · rintro ⟨⟨hok, hfix, hord⟩, hm, hmfix, hapart, hlast⟩
      refine ⟨?_, ?_, (runBefore_concat hord).mpr ⟨hlast, hapart⟩⟩
      · simpa [or_imp, forall_and] using ⟨hok, hm⟩
      · simpa [or_imp, forall_and] using ⟨hfix, hmfix⟩
    · rintro ⟨hok, hfix, hord⟩
      have hord' := (List.pairwise_append.mp hord).1
      obtain ⟨hlast, hapart⟩ := (runBefore_concat hord').mp hord
      exact ⟨⟨fun e he => hok e (by simp [he]), fun d hd e he => hfix d hd e (by simp [he]), hord'⟩,
        hok m (by simp), fun d hd => hfix d hd m (by simp), hapart, hlast⟩

/-- R4 to R10: entries are sound exactly when all of them pass the checks in the examination order. -/
theorem soundEntries_iff {grp : Group} {refs fixed rows : List FieldDef} {literals : List LiteralRun} :
    SoundEntries grp refs fixed rows literals ↔ AllOk (fieldEntryOk grp refs []) fixed
      ∧ AllOk (fieldEntryOk grp refs fixed) rows ∧ AllOk (literalEntryOk grp fixed) literals := by
  rw [allOk_fields, allOk_fields, allOk_literals]
  simp only [fieldOk_iff, literalOk_iff]
  constructor
  · rintro ⟨ids, fields, runs, fixedOrder, rowOrder, runOrder, apart⟩
    rw [List.map_append, List.nodup_append] at ids
    obtain ⟨idsF, idsR, disj⟩ := ids
    refine ⟨⟨fun d hd => fields d (by simp [hd]), by simp, idsF, fixedOrder⟩,
      ⟨fun d hd => fields d (by simp [hd]), fun d hd e he => ?_, idsR, rowOrder⟩, runs, apart, runOrder⟩
    exact disj _ (List.mem_map_of_mem he) _ (List.mem_map_of_mem hd)
  · rintro ⟨⟨fieldsF, -, idsF, fixedOrder⟩, ⟨fieldsR, disj, idsR, rowOrder⟩, runs, apart, runOrder⟩
    refine ⟨?_, fun d hd => ?_, runs, fixedOrder, rowOrder, runOrder, apart⟩
    · rw [List.map_append, List.nodup_append]
      refine ⟨idsF, idsR, ?_⟩
      simp only [List.mem_map]
      rintro _ ⟨e, he, rfl⟩ _ ⟨d, hd, rfl⟩
      exact disj d hd e he
    · exact (List.mem_append.mp hd).elim (fieldsF d) (fieldsR d)

/-! ### The first entry that fails (R15) -/

/-- A load is sound up to `k` when the entries up to `k` pass their checks; the later lists are looked at behind whole
earlier ones only. -/
theorem soundUpTo_iff {x : Staging} {k : Nat} : SoundUpTo x k ↔
    AllOk (fieldEntryOk x.declared.group x.rowDefs []) (x.fixed.take k)
      ∧ AllOk (fieldEntryOk x.declared.group x.rowDefs x.fixed) (x.rowDefs.take (k - x.fixed.length))
      ∧ AllOk (literalEntryOk x.declared.group x.fixed) (x.literals.take (k - x.fixed.length - x.rowDefs.length)) := by
  rw [SoundUpTo, soundEntries_iff]
  rcases Nat.le_total x.fixed.length k with h | h
  · rw [List.take_of_length_le h]
  · rw [Nat.sub_eq_zero_of_le h]
    simp [allOk_nil]

theorem soundUpTo_mono {x : Staging} {j k : Nat} (h : SoundUpTo x k) (hj : j ≤ k) : SoundUpTo x j := by
  rw [soundUpTo_iff] at *
  obtain ⟨hf, hr, hl⟩ := h
  have shorter : ∀ {α : Type} {ok : List α → α → Bool} {l : List α} {m n : Nat}, m ≤ n → AllOk ok (l.take n) →
      AllOk ok (l.take m) := by
    intro α ok l m n hmn hn
    have := hn.take m
    rwa [List.take_take, Nat.min_eq_left hmn] at this
  exact ⟨shorter hj hf, shorter (by omega) hr, shorter (by omega) hl⟩

/-- R15: no entry is found exactly when the whole load is sound. -/
theorem Staging.invalid_eq_none {x : Staging} :
    x.invalid = none ↔ SoundTemplate x.declared.group x.fixed x.rowDefs x.literals := by
  simp only [Staging.invalid, Option.or_eq_none_iff, firstBad_eq_none allOk_nil, List.nil_append]
  exact soundEntries_iff.symm

/-- R15: the index found is that of the first entry that fails. -/
theorem Staging.invalid_eq_some {x : Staging} {k : Nat} (h : x.invalid = some k) :
    1 ≤ k ∧ k ≤ x.fixed.length + x.rowDefs.length + x.literals.length ∧ SoundUpTo x (k - 1) ∧ ¬SoundUpTo x k := by
  unfold Staging.invalid at h
  dsimp only at h
  rcases Option.or_eq_some_iff.mp h with h | ⟨hf, h⟩
  · obtain ⟨n, hn, rfl, hgood, hbad⟩ := firstBad_eq_some allOk_nil h
    simp only [List.nil_append] at hgood hbad
    refine ⟨by omega, by omega, ?_, fun hs => ?_⟩
    · rw [soundUpTo_iff, Nat.add_sub_cancel_left, Nat.sub_eq_zero_of_le hn.le]
      exact ⟨hgood, by simp [allOk_nil], by simp [allOk_nil]⟩
    · rw [Nat.add_comm 1 n] at hs
      exact hbad (soundUpTo_iff.mp hs).1
  rw [firstBad_eq_none allOk_nil, List.nil_append] at hf
  rcases Option.or_eq_some_iff.mp h with h | ⟨hr, h⟩
  · obtain ⟨n, hn, rfl, hgood, hbad⟩ := firstBad_eq_some allOk_nil h
    simp only [List.nil_append] at hgood hbad
    refine ⟨by omega, by omega, ?_, fun hs => ?_⟩
    · rw [soundUpTo_iff, show x.fixed.length + 1 + n - 1 - x.fixed.length = n by omega,
        Nat.sub_eq_zero_of_le hn.le]
      exact ⟨hf.take _, hgood, by simp [allOk_nil]⟩
    · obtain ⟨-, hs, -⟩ := soundUpTo_iff.mp hs
      rw [show x.fixed.length + 1 + n - x.fixed.length = n + 1 by omega] at hs
      exact hbad hs
  · rw [firstBad_eq_none allOk_nil, List.nil_append] at hr
    obtain ⟨n, hn, rfl, hgood, hbad⟩ := firstBad_eq_some allOk_nil h
    simp only [List.nil_append] at hgood hbad
    refine ⟨by omega, by omega, ?_, fun hs => ?_⟩
    · rw [soundUpTo_iff, show x.fixed.length + x.rowDefs.length + 1 + n - 1 - x.fixed.length - x.rowDefs.length = n by
        omega]
      exact ⟨hf.take _, hr.take _, hgood⟩
    · obtain ⟨-, -, hs⟩ := soundUpTo_iff.mp hs
      rw [show x.fixed.length + x.rowDefs.length + 1 + n - x.fixed.length - x.rowDefs.length = n + 1 by omega] at hs
      exact hbad hs

/-- R15: the place up to which a load is sound is one place only. -/
theorem Staging.invalid_eq_some_of_sound {x : Staging} {k : Nat} (hs : SoundUpTo x (k - 1)) (hk : ¬SoundUpTo x k) :
    x.invalid = some k := by
  cases h : x.invalid with
  | none =>
    have whole := soundEntries_iff.mp (Staging.invalid_eq_none.mp h)
    exact absurd (soundUpTo_iff.mpr ⟨whole.1.take _, whole.2.1.take _, whole.2.2.take _⟩) hk
  | some j =>
    obtain ⟨hj, -, hgood, hbad⟩ := Staging.invalid_eq_some h
    rcases Nat.lt_trichotomy j k with hlt | rfl | hgt
    · exact absurd (soundUpTo_mono hs (by omega)) hbad
    · rfl
    · exact absurd (soundUpTo_mono hgood (by omega)) hk

theorem Staging.missing_eq_none {x : Staging} : x.missing = none ↔ Complete x := by
  simp only [Staging.missing, Complete]
  split
  · simp; omega
  split
  · simp; omega
  split
  · simp; omega
  · simp; omega

/-- R15: LOAD END finds nothing exactly in a complete and sound load. -/
theorem Staging.offending_eq_none {x : Staging} :
    x.offending = none ↔ Complete x ∧ SoundTemplate x.declared.group x.fixed x.rowDefs x.literals := by
  unfold Staging.offending
  cases h : x.missing with
  | none => simp [Staging.missing_eq_none.mp h, Staging.invalid_eq_none]
  | some k =>
    have : ¬Complete x := fun hc => by rw [Staging.missing_eq_none.mpr hc] at h; cases h
    simp [this]

theorem Staging.offending_of_complete {x : Staging} (h : Complete x) : x.offending = x.invalid := by
  rw [Staging.offending, Staging.missing_eq_none.mpr h]

end Sys2Proof.Machine

/-! PROOFS. The records of the Template Store (R13 to R19), settled one by one. -/

namespace Sys2Proof.Machine

variable {s : State} {g : GenId}

/-! ### The arrival of a record of the Template Store -/

theorem exec_loadBegin (h : Receiving s g) (p : LoadBegin) :
    exec (.loadBegin p) s = .next (s.hunting.loadBegin p g) :=
  congrArg Host.Outcome.next (State.arrive_receiving h fun s g => s.loadBegin p g)

theorem exec_loadPart (h : Receiving s g) (l : List LoadEntry) :
    exec (.loadPart l) s = .next (s.hunting.loadPart l g) :=
  congrArg Host.Outcome.next (State.arrive_receiving h fun s g => s.loadPart l g)

theorem exec_loadEnd (h : Receiving s g) : exec .loadEnd s = .next (s.hunting.loadEnd g) :=
  congrArg Host.Outcome.next (State.arrive_receiving h State.loadEnd)

theorem exec_loadAbandon (h : Receiving s g) : exec .loadAbandon s = .next (s.hunting.loadAbandon g) :=
  congrArg Host.Outcome.next (State.arrive_receiving h State.loadAbandon)

theorem exec_dropTemplate (h : Receiving s g) (id : Nat) :
    exec (.dropTemplate id) s = .next (s.hunting.dropTemplate id g) :=
  congrArg Host.Outcome.next (State.arrive_receiving h fun s g => s.dropTemplate id g)

/-- An event does not look at the receiver. -/
theorem State.raise_hunting (e : Event) : s.hunting.raise e = (s.raise e).hunting := by
  obtain ⟨hev, hw⟩ := State.raise_slot_congr (s := s) (t := s.hunting) e rfl rfl rfl rfl
  rw [State.raise_eq s.hunting, hev, hw, State.raise_eq s]
  rfl

/-! ### LOAD PART (R14) -/

/-- R14: whether a part fits the declaration of a staged load. -/
def Staging.Fits (x : Staging) (l : List LoadEntry) : Prop :=
  (fieldsOf false l = [] ∨ x.fixed.length + (fieldsOf false l).length ≤ x.declared.fixedCount)
    ∧ (fieldsOf true l = [] ∨ x.rowDefs.length + (fieldsOf true l).length ≤ x.declared.rowCount)
    ∧ (runsOf l = [] ∨ x.literals.length + (runsOf l).length ≤ x.declared.literalCount
      ∧ ((x.literals ++ runsOf l).map (fun l => l.text.length)).sum ≤ x.declared.literalTotal)

/-- R14: a staged load with the entries of a part at the ends of their lists. -/
def Staging.extended (x : Staging) (l : List LoadEntry) : Staging :=
  { x with
    fixed := x.fixed ++ fieldsOf false l, rowDefs := x.rowDefs ++ fieldsOf true l, literals := x.literals ++ runsOf l }

@[simp] theorem fieldsOf_nil (b : Bool) : fieldsOf b [] = [] := rfl

@[simp] theorem runsOf_nil : runsOf [] = [] := rfl

@[simp] theorem fieldsOf_literal (b : Bool) (m : LiteralRun) (l : List LoadEntry) :
    fieldsOf b (.literal m :: l) = fieldsOf b l := rfl

@[simp] theorem runsOf_literal (m : LiteralRun) (l : List LoadEntry) : runsOf (.literal m :: l) = m :: runsOf l := rfl

@[simp] theorem fieldsOf_field (b : Bool) (d : FieldDef) (l : List LoadEntry) :
    fieldsOf b (.field d :: l) = if d.rowRegion = b then d :: fieldsOf b l else fieldsOf b l := by
  by_cases h : d.rowRegion = b <;> simp [fieldsOf, h]

@[simp] theorem runsOf_field (d : FieldDef) (l : List LoadEntry) : runsOf (.field d :: l) = runsOf l := rfl

theorem Staging.extended_cons (x : Staging) (e : LoadEntry) (l : List LoadEntry) :
    x.extended (e :: l) = (x.extended [e]).extended l := by
  cases e with
  | literal m => simp [Staging.extended]
  | field d => cases hd : d.rowRegion <;> simp [Staging.extended, hd]

/-- Room for an entry and those behind it is room for the entry, and then for those behind it. -/
theorem room_cons {α : Type} (l : List α) (n k : Nat) :
    n + (l.length + 1) ≤ k ↔ n + 1 ≤ k ∧ (l = [] ∨ n + 1 + l.length ≤ k) := by
  rcases eq_or_ne l [] with rfl | h
  · simp
  · simp only [h, false_or]
    omega

theorem Staging.fits_cons (x : Staging) (e : LoadEntry) (l : List LoadEntry) :
    x.Fits (e :: l) ↔ x.Fits [e] ∧ (x.extended [e]).Fits l := by
  cases e with
  | literal m =>
    have sums : ((x.literals ++ m :: runsOf l).map (fun l => l.text.length)).sum
        = ((x.literals ++ [m]).map (fun l => l.text.length)).sum + ((runsOf l).map (fun l => l.text.length)).sum := by
      simp [Nat.add_assoc]
    simp only [Staging.Fits, Staging.extended, fieldsOf_literal, runsOf_literal, fieldsOf_nil, runsOf_nil,
      List.append_nil, List.length_append, List.length_cons, List.length_nil, reduceCtorEq, false_or, true_or,
      true_and, List.append_assoc, List.singleton_append, sums, room_cons]
    rcases eq_or_ne (runsOf l) [] with he | he
    · simp only [he, true_or, List.map_nil, List.sum_nil, and_true]
      tauto
    · simp only [he, false_or]
      constructor
      · rintro ⟨hfixed, hrows, ⟨hone, hcount⟩, hchars⟩
        exact ⟨⟨hone, by omega⟩, hfixed, hrows, hcount, hchars⟩
      · rintro ⟨⟨hone, -⟩, hfixed, hrows, hcount, hchars⟩
        exact ⟨hfixed, hrows, ⟨hone, hcount⟩, hchars⟩
  | field d =>
    cases hd : d.rowRegion <;>
      simp only [Staging.Fits, Staging.extended, fieldsOf_field, runsOf_field, fieldsOf_nil, runsOf_nil, hd,
        reduceCtorEq, if_true, if_false, List.append_nil, List.length_append, List.length_cons, List.length_nil,
        false_or, true_or, true_and, and_true, room_cons] <;>
      tauto

/-- R14: one entry is added exactly when it fits. -/
theorem Staging.add_eq (x : Staging) (e : LoadEntry) :
    (x.Fits [e] → x.add e = some (x.extended [e])) ∧ (¬x.Fits [e] → x.add e = none) := by
  cases e with
  | literal m =>
    have hfit : x.Fits [.literal m] ↔ x.literals.length < x.declared.literalCount
        ∧ literalChars x.literals + m.text.length ≤ x.declared.literalTotal := by
      simp [Staging.Fits, literalChars]
    simp only [hfit, Staging.add]
    constructor
    · intro h
      simp [h, Staging.extended]
    · intro h
      simp only [Bool.and_eq_true, decide_eq_true_eq, h, if_false]
  | field d =>
    cases hd : d.rowRegion with
    | true =>
      have hfit : x.Fits [.field d] ↔ x.rowDefs.length < x.declared.rowCount := by
        simp [Staging.Fits, hd]
      simp only [hfit, Staging.add, hd, if_true]
      exact ⟨fun h => by simp [h, Staging.extended, hd], fun h => by simp [h]⟩
    | false =>
      have hfit : x.Fits [.field d] ↔ x.fixed.length < x.declared.fixedCount := by
        simp [Staging.Fits, hd]
      simp only [hfit, Staging.add, hd, Bool.false_eq_true, if_false]
      exact ⟨fun h => by simp [h, Staging.extended, hd], fun h => by simp [h]⟩

/-- R14: a part is taken whole when it fits, and not at all when it does not. -/
theorem Staging.addAll_eq (l : List LoadEntry) (x : Staging) :
    (x.Fits l → x.addAll l = some (x.extended l)) ∧ (¬x.Fits l → x.addAll l = none) := by
  induction l generalizing x with
  | nil => simp [Staging.Fits, Staging.addAll, Staging.extended]
  | cons e rest ih =>
    obtain ⟨added, refused⟩ := x.add_eq e
    rw [Staging.fits_cons]
    constructor
    · rintro ⟨h1, h2⟩
      simp only [Staging.addAll, added h1, Staging.extended_cons x e rest]
      exact (ih _).1 h2
    · intro h
      by_cases h1 : x.Fits [e]
      · simp only [Staging.addAll, added h1]
        exact (ih _).2 (fun h2 => h ⟨h1, h2⟩)
      · simp only [Staging.addAll, refused h1]

/-- Settles O19: the entries are added one by one, and each fits as long as the whole part does. -/
theorem loadPartAppendsOrAbandons : Obligations.LoadPartAppendsOrAbandons := by
  intro s g entries h
  refine ⟨fun hs => ?_, fun x hx => ?_, fun f hsound haddr hkind hdec => ?_⟩
  · rw [exec_loadPart h]
    simp only [State.loadPart, State.hunting_staging, hs]
    rfl
  · obtain ⟨fits, exceeds⟩ := x.addAll_eq entries
    rw [exec_loadPart h]
    refine ⟨fun hf => ?_, fun hf => ?_⟩
    · simp only [State.loadPart, State.hunting_staging, hx, fits hf]
      rfl
    · simp only [State.loadPart, State.hunting_staging, hx, exceeds hf]
      rfl
  · have routed : exec (.frameRefused f) s = .next (s.hunting.routeFrame f g) :=
      congrArg Host.Outcome.next (State.arrive_receiving h fun s g => s.routeFrame f g)
    rw [routed]
    have address : f.address.toNat = 0 := by rw [haddr]; rfl
    have kind : f.kind.toNat = 0x02 := by rw [hkind]; rfl
    simp only [State.routeFrame, hsound, address, Bool.not_true, Bool.false_eq_true, if_false, if_true,
      State.routeControl, kind, hdec]
    rfl

/-! ### DROP TEMPLATE (R18) -/

/-- Settles O22: the LIVE version is the one found, and retiring it is one of the two cases of R19 and R21. -/
theorem dropTemplateRetiresLiveVersion : Obligations.DropTemplateRetiresLiveVersion := by
  intro s g id h hlaw
  obtain ⟨-, live, -, -⟩ := hlaw
  rw [exec_dropTemplate h]
  refine ⟨fun hid => ?_, fun h1 h2 hret => ?_, fun e v h1 h2 hv hid hst => ?_⟩
  · have : (decide (id < 1) || decide (250 < id)) = true := by
      simp only [Bool.or_eq_true, decide_eq_true_eq]; omega
    simp only [State.dropTemplate, this, if_true]
    rfl
  · have inRange : (decide (id < 1) || decide (250 < id)) = false := by
      simp only [Bool.or_eq_false_iff, decide_eq_false_iff_not]; omega
    have found : s.hunting.liveEntry id = none := State.liveEntry_none.mpr hret
    simp only [State.dropTemplate, inRange, Bool.false_eq_true, if_false, found]
    rfl
  · have inRange : (decide (id < 1) || decide (250 < id)) = false := by
      simp only [Bool.or_eq_false_iff, decide_eq_false_iff_not]; omega
    have found : s.hunting.liveEntry id = some e := hid ▸ State.liveEntry_of_live (s := s.hunting) live hv hst
    have table : (s.hunting.retire e).table
        = s.table.set e (if v.useCount = 0 then none else some { v with status := .retired }) :=
      State.retire_table (s := s.hunting) hv
    simp only [State.dropTemplate, inRange, Bool.false_eq_true, if_false, found]
    refine ⟨fun hu => ?_, fun hu => ?_, _, rfl, fun f w hw hwid => ?_, ?_⟩
    · rw [State.retire_eq (s := s.hunting) hv, if_neg hu]
      rfl
    · rw [State.retire_eq (s := s.hunting) hv, if_pos hu]
      exact congrArg (fun t => Host.Outcome.next (State.answer t g (.done dropTemplateKind)))
        (State.raise_hunting (s := s.setEntry e none) .templateFreed)
    · have hw' : (s.hunting.retireLive (s.hunting.liveEntry id)).table[f] = some w := by rw [found]; exact hw
      exact State.retireLive_no_live (s := s.hunting) live id f w hw' hwid
    · exact (State.retire_only (i := 0) s.hunting e).staging

/-! ### LOAD END (R15, R16) -/

theorem State.loadEnd_install {x : Staging} (hx : s.staging = some x) (hok : x.offending = none) :
    s.loadEnd g = s.install x g := by
  simp only [State.loadEnd, hx, hok]

theorem State.loadEnd_abandon {x : Staging} {k : Nat} (hx : s.staging = some x) (hbad : x.offending = some k) :
    s.loadEnd g = s.abandonLimit k g := by
  simp only [State.loadEnd, hx, hbad]

/-- R2: ids in their range have version numbers of their own. -/
theorem versionIndex_injective {a b : Nat} (ha : 1 ≤ a ∧ a ≤ 250) (hb : 1 ≤ b ∧ b ≤ 250)
    (h : versionIndex a = versionIndex b) : a = b := by
  have := congrArg Fin.val h
  simp only [versionIndex, Fin.ofNat_eq_cast, Fin.val_natCast] at this
  omega

/-- R16: what an installation leaves: the new version beside what retiring the old one left, the next number, and the
reply. -/
theorem State.install_eq (x : Staging) : s.install x g =
    ({ s.retireLive (s.liveEntry x.declared.id) with
        table := (s.retireLive (s.liveEntry x.declared.id)).table.set x.entry
          (some (x.toVersion (s.nextVersionOf x.declared.id)))
        staging := none
        nextVersion := s.nextVersion.set (versionIndex x.declared.id) ((s.nextVersionOf x.declared.id + 1) % 256) } :
      State).answer g (.loaded x.declared.id (s.nextVersionOf x.declared.id)
        ((s.liveEntry x.declared.id).map (fun e => (s.versionAt e).version))) := by
  rw [← (State.retireLive_only (i := 0) s (s.liveEntry x.declared.id)).nextVersion]
  rfl

/-- R19, R21: what retiring a version changes outside the table: nothing, or the events with TEMPLATE FREED. -/
theorem State.retire_frame (s : State) (e : EntryId) :
    (s.retire e).stations = s.stations ∧ (s.retire e).general = s.general ∧ (s.retire e).freeRows = s.freeRows
      ∧ (s.retire e).attention = s.attention := by
  cases hv : s.table[e] with
  | none => simp [State.retire, hv]
  | some v => rw [State.retire_eq hv]; split <;> simp

theorem State.retireLive_frame (s : State) (o : Option EntryId) :
    (s.retireLive o).stations = s.stations ∧ (s.retireLive o).general = s.general
      ∧ (s.retireLive o).freeRows = s.freeRows ∧ (s.retireLive o).attention = s.attention := by
  cases o with
  | none => exact ⟨rfl, rfl, rfl, rfl⟩
  | some e => exact State.retire_frame s e

/-- Settles O20: with one LIVE version of the id at most, the installation retires that version and sets the new one. -/
theorem loadEndInstallsLiveVersion : Obligations.LoadEndInstallsLiveVersion := by
  intro s g x h hlaw hx hid1 hid2 hcomplete hsound id new
  obtain ⟨-, live, -, -, free⟩ := hlaw
  have hok : x.offending = none := Staging.offending_eq_none.mpr ⟨hcomplete, hsound⟩
  have run : exec .loadEnd s = .next (s.hunting.install x g) := by
    rw [exec_loadEnd h, State.loadEnd_install (s := s.hunting) hx hok]
  obtain ⟨stations, general, freeRows, attention⟩ := State.retireLive_frame s.hunting (s.hunting.liveEntry id)
  have only := State.retireLive_only (i := 0) s.hunting (s.hunting.liveEntry id)
  refine ⟨_, run, ?_⟩
  rw [State.install_eq]
  refine ⟨?_, rfl, ?_, fun k hk1 hk2 hne => ?_, fun hret => ?_, fun e v hv hvid hst => ?_, stations, freeRows,
    only.loop, attention, only.tx, only.enable, only.rx, only.pending⟩
  · simp only [State.answer, State.place_table, getElem_set_fin, if_true]
    rfl
  · simp only [State.nextVersionOf, State.answer, State.place_nextVersion, getElem_set_fin]
    exact if_pos rfl
  · simp only [State.nextVersionOf, State.answer, State.place_nextVersion, getElem_set_fin]
    exact if_neg fun he => hne (versionIndex_injective ⟨hk1, hk2⟩ ⟨hid1, hid2⟩ he)
  · have found : s.hunting.liveEntry x.declared.id = none := State.liveEntry_none.mpr hret
    rw [found]
    exact ⟨rfl, rfl, rfl, rfl, rfl⟩
  · have found : s.hunting.liveEntry x.declared.id = some e := by
      have := State.liveEntry_of_live (s := s.hunting) live hv hst
      rwa [show v.id = x.declared.id from hvid] at this
    rw [found]
    have version : (s.hunting.versionAt e).version = v.version := by
      rw [State.versionAt_of_some (s := s.hunting) hv]
    have retired := State.retire_eq (s := s.hunting) hv
    refine ⟨?_, fun hu => ?_, fun hu => ?_⟩
    · simp only [State.answer, State.place_general, Option.map_some, version]
      rw [show (s.hunting.retireLive (some e)).general = s.general from (State.retire_frame s.hunting e).2.1]
      rfl
    · rw [if_neg hu] at retired
      simp only [State.retireLive, retired]
      exact ⟨rfl, rfl, rfl, rfl⟩
    · rw [if_pos hu] at retired
      obtain ⟨hev, hw⟩ := State.raise_slot_congr (s := s) (t := s.hunting.setEntry e none) .templateFreed rfl rfl rfl rfl
      simp only [State.retireLive, retired]
      refine ⟨?_, ?_, hev, ?_⟩
      · simp only [State.answer, State.place_table, State.raise_table, State.setEntry_table]
        rfl
      · simp [State.answer]
      · simp only [State.answer, State.place_waiting, hw]

/-- Settles O21: LOADED is placed by the installation only, which a complete and sound load alone reaches. -/
theorem installedTemplateIsSound : Obligations.InstalledTemplateIsSound := by
  intro s t g x id version retired h hx hrun hreply
  rw [exec_loadEnd h] at hrun
  cases hrun
  cases hoff : x.offending with
  | some k =>
    rw [State.loadEnd_abandon (s := s.hunting) hx hoff] at hreply
    simp [State.abandonLimit, State.answer] at hreply
  | none =>
    obtain ⟨hcomplete, hsound⟩ := Staging.offending_eq_none.mp hoff
    rw [State.loadEnd_install (s := s.hunting) hx hoff, State.install_eq]
    refine ⟨x.toVersion (s.hunting.nextVersionOf x.declared.id), ?_, rfl, rfl, rfl, rfl, rfl, hcomplete, hsound⟩
    simp only [State.answer, State.place_table, getElem_set_fin, if_true]

/-! ### LOAD BEGIN, LOAD END and LOAD ABANDON (R13, R15, R17) -/

/-- R3, R13: the check of the declared values says what the rules say of them. -/
theorem loadBeginOk_iff {p : LoadBegin} : loadBeginOk p = true ↔
    1 ≤ p.id ∧ p.id ≤ 250 ∧ p.fixedCount ≤ 128 ∧ p.rowCount ≤ 12 ∧ p.literalCount ≤ 96
      ∧ (p.group.visible = 0 → p.rowCount = 0)
      ∧ (p.group.visible ≠ 0 → p.group.visible ≤ 20 ∧ 1 ≤ p.group.first ∧ p.group.first + p.group.visible ≤ 24
          ∧ 1 ≤ p.group.maxRows ∧ p.group.maxRows ≤ 99 ∧ 1 ≤ p.rowCount)
      ∧ p.literalCount ≤ p.literalTotal ∧ p.literalTotal ≤ 80 * p.literalCount := by
  have grp : groupOk p.group p.rowCount = true ↔ (p.group.visible = 0 → p.rowCount = 0)
      ∧ (p.group.visible ≠ 0 → p.group.visible ≤ 20 ∧ 1 ≤ p.group.first ∧ p.group.first + p.group.visible ≤ 24
          ∧ 1 ≤ p.group.maxRows ∧ p.group.maxRows ≤ 99 ∧ 1 ≤ p.rowCount) := by
    by_cases hv : p.group.visible = 0 <;> simp [groupOk, hv, and_assoc]
  simp only [loadBeginOk, Bool.and_eq_true, decide_eq_true_eq, grp, and_assoc]

theorem State.freeEntry_none : s.freeEntry = none ↔ ¬∃ e : EntryId, s.table[e] = none := by
  simp [State.freeEntry, entryIds, List.find?_eq_none]

/-- R13: the outcomes of LOAD BEGIN. -/
theorem loadBegin_outcomes (h : Receiving s g) (p : LoadBegin) :
    (s.staging ≠ none → exec (.loadBegin p) s = .next (s.replied g 0 (controlException .state 0x01)))
      ∧ (s.staging = none → loadBeginOk p = false →
        exec (.loadBegin p) s = .next (s.replied g 0 (controlException .format 0x01)))
      ∧ (s.staging = none → loadBeginOk p = true →
        (¬((∃ e : EntryId, s.table[e] = none) ∧ p.fixedCount + p.rowCount ≤ s.freeDefinitions
          ∧ p.literalTotal ≤ s.freeLiterals) →
          exec (.loadBegin p) s = .next (s.replied g 0 (controlException .store 0x01)))
        ∧ ((∃ e : EntryId, s.table[e] = none) ∧ p.fixedCount + p.rowCount ≤ s.freeDefinitions
          ∧ p.literalTotal ≤ s.freeLiterals → ∃ e : EntryId, s.table[e] = none ∧ exec (.loadBegin p) s =
            .next { s.replied g 0 (.done 0x01) with
              staging := some { entry := e, declared := { p with group := heldGroup p.group }
                                fixed := [], rowDefs := [], literals := [] } })) := by
  rw [exec_loadBegin h]
  have definitions : s.hunting.freeDefinitions = s.freeDefinitions := rfl
  have characters : s.hunting.freeLiterals = s.freeLiterals := rfl
  refine ⟨fun hs => ?_, fun hs hp => ?_, fun hs hp => ⟨fun hroom => ?_, fun hroom => ?_⟩⟩
  · obtain ⟨x, hx⟩ := Option.ne_none_iff_exists'.mp hs
    simp only [State.loadBegin, State.hunting_staging, hx]
    rfl
  · simp only [State.loadBegin, State.hunting_staging, hs, hp, Bool.not_false, if_true]
    rfl
  · simp only [State.loadBegin, State.hunting_staging, hs, hp, Bool.not_true, Bool.false_eq_true, if_false,
      definitions, characters]
    cases he : s.hunting.freeEntry with
    | none => rfl
    | some e =>
      have full : (decide (s.freeDefinitions < p.fixedCount + p.rowCount)
          || decide (s.freeLiterals < p.literalTotal)) = true := by
        simp only [Bool.or_eq_true, decide_eq_true_eq]
        by_contra hn
        exact hroom ⟨⟨e, State.freeEntry_some he⟩, by omega, by omega⟩
      simp only [full, if_true]
      rfl
  · obtain ⟨hentry, hdef, hlit⟩ := hroom
    cases he : s.hunting.freeEntry with
    | none => exact absurd hentry (State.freeEntry_none.mp he)
    | some e =>
      have enough : (decide (s.freeDefinitions < p.fixedCount + p.rowCount)
          || decide (s.freeLiterals < p.literalTotal)) = false := by
        simp only [Bool.or_eq_false_iff, decide_eq_false_iff_not]; omega
      refine ⟨e, State.freeEntry_some he, ?_⟩
      simp only [State.loadBegin, State.hunting_staging, hs, hp, Bool.not_true, Bool.false_eq_true, if_false,
        he, definitions, characters, enough]
      rfl

/-- Settles O18: each record by the checks it makes, and the search for the first entry that fails. -/
theorem loadsBeginAndEnd : Obligations.LoadsBeginAndEnd := by
  refine ⟨fun s g p h => ?_, fun s g h => ?_, fun s g h => ?_⟩
  · intro inRange room
    have range : loadBeginOk p = true ↔ inRange := loadBeginOk_iff
    obtain ⟨busy, outOfRange, full⟩ := loadBegin_outcomes h p
    refine ⟨busy, fun hs hp => outOfRange hs (by rw [← Bool.not_eq_true, range]; exact hp),
      fun hs hp hr => (full hs (range.mpr hp)).1 hr, fun hs hp hr => ?_⟩
    obtain ⟨e, he, run⟩ := (full hs (range.mpr hp)).2 hr
    refine ⟨e, _, run, he, rfl, ?_, ?_, ?_⟩
    · simp [State.freeEntries, State.replied, hs, reservedBy]
    · simp [State.freeDefinitions, State.replied, hs, reservedBy]
    · simp [State.freeLiterals, State.replied, hs, reservedBy]
  · intro limit
    refine ⟨fun hs => ?_, fun x hx => ?_⟩
    · rw [exec_loadEnd h]
      simp only [State.loadEnd, State.hunting_staging, hs]
      rfl
    intro fc rc lc
    have abandoned : ∀ {k}, x.offending = some k →
        exec .loadEnd s = .next { s.replied g 0 (limit k) with staging := none } := by
      intro k hk
      rw [exec_loadEnd h, State.loadEnd_abandon (s := s.hunting) hx hk]
      rfl
    have incomplete : ∀ {k}, x.missing = some k → x.offending = some k := by
      intro k hk
      simp only [Staging.offending, hk]
    refine ⟨fun h1 => ?_, fun h1 h2 => ?_, fun h1 h2 h3 => ?_, fun hc => ⟨fun hsound => ?_, fun k _ _ hgood hbad => ?_,
      fun hsound => ?_⟩⟩
    · exact abandoned (incomplete (by simp only [Staging.missing]; rw [if_pos h1]))
    · exact abandoned (incomplete (by
        simp only [Staging.missing]; rw [if_neg (Nat.not_lt.mpr h1), if_pos h2]))
    · exact abandoned (incomplete (by
        simp only [Staging.missing]; rw [if_neg (Nat.not_lt.mpr h1), if_neg (Nat.not_lt.mpr h2), if_pos h3]))
    · have hok := Staging.offending_eq_none.mpr ⟨hc, hsound⟩
      refine ⟨s.hunting.install x g, (s.hunting.liveEntry x.declared.id).map (fun e => (s.versionAt e).version),
        ?_, ?_, ?_⟩
      · rw [exec_loadEnd h, State.loadEnd_install (s := s.hunting) hx hok]
      · rw [State.install_eq]
        rfl
      · rw [State.install_eq]
        simp only [State.answer, State.place_general, getElem_set_fin, if_true]
        rfl
    · exact abandoned ((Staging.offending_of_complete hc).trans (Staging.invalid_eq_some_of_sound hgood hbad))
    · cases hi : x.invalid with
      | none => exact absurd (Staging.invalid_eq_none.mp hi) hsound
      | some k =>
        obtain ⟨h1, h2, hgood, hbad⟩ := Staging.invalid_eq_some hi
        exact ⟨k, h1, h2, hgood, hbad, abandoned ((Staging.offending_of_complete hc).trans hi)⟩
  · rw [exec_loadAbandon h]
    refine ⟨fun hs => ?_, fun x hx => ?_⟩
    · simp only [State.loadAbandon, State.hunting_staging, hs]
      rfl
    · simp only [State.loadAbandon, State.hunting_staging, hx]
      rfl

end Sys2Proof.Machine

/-! PROOFS. The texts and values of field instances (R60, R61, R107): a value that fits its field has a display form as
wide as the field, and every way an instance is written leaves a text of that width and a value that fits. -/

namespace Sys2Proof.Machine

/-! ### Widths of texts -/

@[simp] theorem spaces_length (n : Nat) : (spaces n).length = n := List.length_replicate

theorem padLeft_length {w : Nat} {t : Text} (h : t.length ≤ w) : (padLeft w t).length = w := by
  simp only [padLeft, List.length_append, spaces_length]; omega

theorem padRight_length {w : Nat} {t : Text} (h : t.length ≤ w) : (padRight w t).length = w := by
  simp only [padRight, List.length_append, spaces_length]; omega

/-- A number below 10^k has at most k decimal digits. -/
theorem decimalDigits_length (fuel : Nat) {n k : Nat} (hk : 1 ≤ k) (h : n < 10 ^ k) (tail : Text) :
    (decimalDigits fuel n tail).length ≤ k + tail.length := by
  induction fuel generalizing n k tail with
  | zero => simp [decimalDigits]
  | succ fuel ih =>
    unfold decimalDigits
    split
    · simp only [List.length_cons]; omega
    · rename_i hn
      have hk2 : 2 ≤ k := by
        by_contra hlt
        rw [show k = 1 by omega] at h
        omega
      have hq : n / 10 < 10 ^ (k - 1) := by
        rw [Nat.div_lt_iff_lt_mul (by omega), ← Nat.pow_succ, show (k - 1).succ = k by omega]
        exact h
      have := ih (k := k - 1) (by omega) hq (digitCode (n % 10) :: tail)
      simp only [List.length_cons] at this
      omega

theorem decimal_length {n k : Nat} (hk : 1 ≤ k) (h : n < 10 ^ k) : (decimal n).length ≤ k := by
  simpa [decimal] using decimalDigits_length (n.log2 + 1) hk h []

@[simp] theorem fractionDigits_length (s n : Nat) : (fractionDigits s n).length = s := by
  induction s with
  | zero => rfl
  | succ s ih => simp [fractionDigits, ih]

/-! ### Values that fit (R107) -/

/-- R6: a number form with room for a digit before its fraction. -/
def NumForm.Roomy (f : NumForm) : Prop := f.scale + 1 ≤ f.digits

theorem valueFits_some {f : NumForm} {m : Int} :
    valueFits f (some m) = true ↔ m.natAbs < 10 ^ f.digits ∧ (f.signed = false → 0 ≤ m) := by
  have pos : 0 < 10 ^ f.digits := Nat.pos_of_ne_zero (by simp)
  simp only [valueFits, Bool.and_eq_true, decide_eq_true_eq, Bool.or_eq_true]
  cases f.signed <;> simp <;> omega

theorem valueFits_none (f : NumForm) : valueFits f none = true := rfl

/-- R61: the display form of a value that fits is as wide as the field. -/
theorem displayForm_length {f : NumForm} (hf : f.Roomy) {o : Option Int} (ho : valueFits f o = true) :
    (displayForm f o).length = f.width := by
  cases o with
  | none => exact spaces_length _
  | some m =>
    obtain ⟨hm, hsign⟩ := valueFits_some.mp ho
    have room : f.digits + (if f.signed then 1 else 0) + (if f.scale > 0 then 1 else 0) = f.width := by
      have : f.scale + 1 ≤ f.digits := hf
      unfold NumForm.digits at *
      omega
    have whole : (decimal (m.natAbs / 10 ^ f.scale)).length ≤ f.digits - f.scale := by
      have : f.scale + 1 ≤ f.digits := hf
      refine decimal_length (by omega) ?_
      rw [Nat.div_lt_iff_lt_mul (by positivity), ← Nat.pow_add, show f.digits - f.scale + f.scale = f.digits by omega]
      exact hm
    have sign : (if m < 0 then 1 else 0) ≤ (if f.signed then 1 else 0) := by
      cases hs : f.signed with
      | true => simp; split <;> omega
      | false => simp [Int.not_lt.mpr (hsign hs)]
    have : f.scale + 1 ≤ f.digits := hf
    simp only [displayForm]
    refine padLeft_length ?_
    by_cases hneg : m < 0 <;> by_cases hscale : f.scale > 0 <;>
      simp only [hneg, hscale, if_true, if_false, List.length_cons, List.length_append, fractionDigits_length] at * <;>
      omega

/-- The value of a run of digits, behind a number read before it. -/
theorem digits_foldl_lt {t : Text} (h : ∀ c ∈ t, isDigit c = true) (a : Nat) :
    t.foldl (fun n c => 10 * n + (c.toNat - 0x30)) a < (a + 1) * 10 ^ t.length := by
  induction t generalizing a with
  | nil => simp
  | cons c t ih =>
    have hc : c.toNat - 0x30 ≤ 9 := by
      have := h c (by simp)
      simp only [isDigit, Bool.and_eq_true, decide_eq_true_eq] at this
      omega
    calc (c :: t).foldl (fun n c => 10 * n + (c.toNat - 0x30)) a
        < (10 * a + (c.toNat - 0x30) + 1) * 10 ^ t.length := ih (fun d hd => h d (by simp [hd])) _
      _ ≤ ((a + 1) * 10) * 10 ^ t.length := Nat.mul_le_mul_right _ (by omega)
      _ = (a + 1) * 10 ^ (c :: t).length := by rw [List.length_cons, Nat.pow_succ]; ring

theorem digitsValue_lt {t : Text} (h : ∀ c ∈ t, isDigit c = true) : digitsValue t < 10 ^ t.length := by
  simpa [digitsValue] using digits_foldl_lt h 0

/-- R60: a mantissa read from a text has no more digits than its field. -/
theorem parseMagnitude_lt {f : NumForm} (hf : f.Roomy) {t : Text} {m : Nat} (h : parseMagnitude f t = some m) :
    m < 10 ^ f.digits := by
  have hroom : f.scale + 1 ≤ f.digits := hf
  have split_pow : 10 ^ f.digits = 10 ^ (f.digits - f.scale) * 10 ^ f.scale := by
    rw [← Nat.pow_add, show f.digits - f.scale + f.scale = f.digits by omega]
  have digits : ∀ c ∈ t.takeWhile isDigit, isDigit c = true := fun c hc => List.mem_takeWhile_imp hc
  have whole : (t.takeWhile isDigit).length ≤ f.digits - f.scale →
      digitsValue (t.takeWhile isDigit) + 1 ≤ 10 ^ (f.digits - f.scale) := fun hl =>
    (digitsValue_lt digits).trans_le (Nat.pow_le_pow_right (by omega) hl)
  unfold parseMagnitude at h
  dsimp only at h
  split at h
  · split at h
    · cases h
    · rename_i hn
      cases h
      simp only [Bool.or_eq_true, decide_eq_true_eq, not_or, Nat.not_lt] at hn
      rw [split_pow]
      exact Nat.mul_lt_mul_of_pos_right (whole hn.2) (by positivity)
  · rename_i c fraction _
    split at h
    · cases h
    · rename_i hn
      cases h
      simp only [Bool.or_eq_true, decide_eq_true_eq, not_or, Nat.not_lt, Bool.not_eq_true, Bool.not_eq_false'] at hn
      obtain ⟨⟨⟨⟨-, hall⟩, -⟩, hfrac⟩, hwhole⟩ := hn
      have fractional : digitsValue fraction * 10 ^ (f.scale - fraction.length) < 10 ^ f.scale := by
        have := digitsValue_lt (t := fraction) (fun c hc => List.all_eq_true.mp hall c hc)
        calc digitsValue fraction * 10 ^ (f.scale - fraction.length)
            < 10 ^ fraction.length * 10 ^ (f.scale - fraction.length) :=
              Nat.mul_lt_mul_of_pos_right this (by positivity)
          _ = 10 ^ f.scale := by rw [← Nat.pow_add, Nat.add_sub_cancel' hfrac]
      calc digitsValue (t.takeWhile isDigit) * 10 ^ f.scale
            + digitsValue fraction * 10 ^ (f.scale - fraction.length)
          < digitsValue (t.takeWhile isDigit) * 10 ^ f.scale + 10 ^ f.scale := by omega
        _ = (digitsValue (t.takeWhile isDigit) + 1) * 10 ^ f.scale := by ring
        _ ≤ 10 ^ (f.digits - f.scale) * 10 ^ f.scale := Nat.mul_le_mul_right _ (whole hwhole)
        _ = 10 ^ f.digits := split_pow.symm

/-- R60, R107: the value of a well-formed entry fits its field. -/
theorem parseEntry_fits {f : NumForm} (hf : f.Roomy) {t : Text} {o : Option Int} (h : parseEntry f t = some o) :
    valueFits f o = true := by
  obtain ⟨-, ⟨-, rfl⟩ | ⟨m, hm, rfl⟩ | ⟨_, m, -, hs, hm, rfl⟩⟩ := parseEntry_eq_some h
  · rfl
  · exact valueFits_some.mpr ⟨by simpa using parseMagnitude_lt hf hm, fun _ => by omega⟩
  · exact valueFits_some.mpr ⟨by simpa using parseMagnitude_lt hf hm, fun h => by simp [hs] at h⟩

/-! ### Instances that fit their definitions -/

/-- What the instances of a definition need of it (R4 to R6): columns on the screen, an initial text no wider than the
field, room for its digits, and limits that the field may hold. -/
structure GoodDef (d : FieldDef) : Prop where
  left : 1 ≤ d.col
  width : 1 ≤ d.width
  right : d.col + d.width ≤ 81
  initial : d.initial.length ≤ d.width
  roomy : (numericPart d.kind).isNone = false → (numForm d).Roomy
  limits : ∀ p policy, d.kind = .numeric p policy → ∀ m, p.min = some m ∨ p.max = some m →
    valueFits (numForm d) (some m) = true

/-- R29, R107: an instance with a text as wide as its field and a value that its field may hold. -/
def FitsField (d : FieldDef) (x : FieldInst) : Prop :=
  x.text.length = d.width ∧ ((numericPart d.kind).isNone = true ∨ valueFits (numForm d) x.value = true)

@[simp] theorem numForm_width (d : FieldDef) : (numForm d).width = d.width := by
  unfold numForm; split <;> rfl

theorem SoundNumber.roomy {d : FieldDef} {p : NumericPart} (hp : numericPart d.kind = some p) (h : SoundNumber d p) :
    (numForm d).Roomy := by
  obtain ⟨-, -, -, hroom, -, -⟩ := h
  simpa only [NumForm.Roomy, NumForm.digits, numForm, hp, gt_iff_lt] using hroom

/-- A definition that LOAD END lets pass is good. -/
theorem goodDef_of_sound {refs : List FieldDef} {d : FieldDef} (h : SoundField d) (hk : SoundKind refs d) :
    GoodDef d := by
  obtain ⟨-, -, hcol, hwidth, hright, -, -, hinitial⟩ := h
  refine ⟨hcol, hwidth, hright, hinitial, fun hn => ?_, fun p policy hkind m hm => ?_⟩
  · unfold SoundKind at hk
    cases hkind : d.kind with
    | text => simp [numericPart, hkind] at hn
    | alpha => simp [numericPart, hkind] at hn
    | numeric p policy => rw [hkind] at hk; exact hk.1.roomy (by rw [hkind]; rfl)
    | product p a b part => rw [hkind] at hk; exact hk.1.roomy (by rw [hkind]; rfl)
    | sum p source part => rw [hkind] at hk; exact hk.1.roomy (by rw [hkind]; rfl)
  · unfold SoundKind at hk
    rw [hkind] at hk
    obtain ⟨⟨-, -, -, -, hlimits, -⟩, -⟩ := hk
    have form : numForm d = { width := d.width, signed := p.signed, scale := p.scale } := by
      simp only [numForm, hkind, numericPart]
    have pos : 0 < 10 ^ (numForm d).digits := Nat.pos_of_ne_zero (by simp)
    obtain ⟨hmag, hsign⟩ := hlimits m hm
    rw [valueFits_some]
    simp only [form, NumForm.digits, gt_iff_lt] at pos ⊢
    exact ⟨by omega, hsign⟩

/-- An instance of another text and value, which fit, fits. -/
theorem fitsField_number {d : FieldDef} (hd : GoodDef d) {o : Option Int} (ho : valueFits (numForm d) o = true)
    (hn : (numericPart d.kind).isNone = false) {x : FieldInst} (ht : x.text = displayForm (numForm d) o)
    (hv : x.value = o) : FitsField d x :=
  ⟨by rw [ht, displayForm_length (hd.roomy hn) ho, numForm_width], .inr (hv ▸ ho)⟩

theorem isNumeric_kind {d : FieldDef} (h : isNumeric d = true) : (numericPart d.kind).isNone = false := by
  unfold isNumeric at h
  split at h
  · rename_i hk; rw [hk]; rfl
  · cases h

/-- R5, R93: an instance as it is built fits. -/
theorem initialInst_fits {d : FieldDef} (hd : GoodDef d) : FitsField d (initialInst d) := by
  cases hk : d.kind with
  | numeric p policy =>
    have hn : (numericPart d.kind).isNone = false := by rw [hk]; rfl
    cases hp : parseEntry (numForm d) d.initial with
    | some o =>
      exact fitsField_number hd (parseEntry_fits (hd.roomy hn) hp) hn (by simp [initialInst, hk, hp])
        (by simp [initialInst, hk, hp])
    | none => simp [FitsField, initialInst, hk, hp, valueFits_none]
  | text => exact ⟨by simpa [initialInst, hk] using padRight_length hd.initial, .inl (by rw [hk]; rfl)⟩
  | alpha => exact ⟨by simpa [initialInst, hk] using padRight_length hd.initial, .inl (by rw [hk]; rfl)⟩
  | product _ _ _ _ =>
    exact ⟨by simpa [initialInst, hk] using padRight_length hd.initial, .inr (by simp [initialInst, hk, valueFits_none])⟩
  | sum _ _ _ =>
    exact ⟨by simpa [initialInst, hk] using padRight_length hd.initial, .inr (by simp [initialInst, hk, valueFits_none])⟩

/-- R40, R116: an instance after a good host text fits. -/
theorem setByHost_fits {d : FieldDef} (hd : GoodDef d) {t : Text} {w : Text × Option Int}
    (h : hostText d t = some w) (x : FieldInst) : FitsField d (setByHost x w) := by
  unfold hostText at h
  split at h
  · cases h
  rename_i hlen
  simp only [Bool.or_eq_true, decide_eq_true_eq, not_or, Nat.not_lt] at hlen
  split at h
  · rename_i p policy hk
    have hn : (numericPart d.kind).isNone = false := by rw [hk]; rfl
    obtain ⟨o, ho, rfl⟩ := Option.map_eq_some_iff.mp h
    exact fitsField_number hd (parseEntry_fits (hd.roomy hn) ho) hn rfl rfl
  · cases h
    exact ⟨padRight_length hlen.2, .inr rfl⟩

/-- R6, R62: limits that a field may hold leave a value that it may hold. -/
theorem applyLimits_fits {f : NumForm} {part : NumericPart} {policy : Nat} {m m' : Int} {b : Bool}
    (hl : ∀ m, part.min = some m ∨ part.max = some m → valueFits f (some m) = true) (hm : valueFits f (some m) = true)
    (h : applyLimits part policy m = .ok (m', b)) : valueFits f (some m') = true := by
  unfold applyLimits at h
  extract_lets below above at h
  split at h
  · cases h; exact hm
  rename_i hout
  split at h
  · cases h
    split
    · rename_i hb
      cases hmin : part.min with
      | none => simp [below, hmin] at hb
      | some lo => exact hl lo (.inl hmin)
    · rename_i hb
      cases hmax : part.max with
      | none => simp [above, hmax, Bool.not_eq_true _ ▸ hb] at hout
      | some hi => exact hl hi (.inr hmax)
  · cases h

theorem fillCheck_ok {d : FieldDef} {x : FieldInst} {y z : Checked} (h : fillCheck d x y = .ok z) : z = y := by
  unfold fillCheck at h
  split at h <;> cases h
  rfl

/-- R62, R63: what a passed exit check writes fits; FIELD MINUS is for signed fields. -/
theorem exitCheck_fits {d : FieldDef} (hd : GoodDef d) {x : FieldInst} (hx : FitsField d x) {negate : Bool}
    (hneg : negate = true → (numForm d).signed = true) {y : Checked} (h : exitCheck d x negate = .ok y) :
    FitsField d { x with text := y.text, value := y.value } := by
  unfold exitCheck at h
  split at h
  · rename_i part policy hk
    have hn : (numericPart d.kind).isNone = false := by rw [hk]; rfl
    split at h
    · cases h
    · rw [fillCheck_ok h]
      exact fitsField_number hd (valueFits_none _) hn rfl rfl
    · rename_i m hp
      split at h
      · cases h
      · rename_i m' adjusted hlim
        rw [fillCheck_ok h]
        refine fitsField_number hd (applyLimits_fits (hd.limits _ _ hk) ?_ hlim) hn rfl rfl
        have fits := parseEntry_fits (hd.roomy hn) hp
        split
        · rename_i hb
          rw [valueFits_some] at *
          exact ⟨by simpa using fits.1, fun hs => by simp [hneg hb] at hs⟩
        · exact fits
  · rw [fillCheck_ok h]
    exact hx

/-- R103 to R106: a result is fitted to its field. -/
theorem fitResult_fits {d : FieldDef} (hd : GoodDef d) (hn : (numericPart d.kind).isNone = false) {x : FieldInst}
    (hx : FitsField d x) (overflow : Nat) (a : Accumulator) : FitsField d (fitResult (numForm d) overflow a x) := by
  unfold fitResult
  split
  · split
    · refine fitsField_number hd ?_ hn rfl rfl
      have pos : 0 < 10 ^ (numForm d).digits := Nat.pos_of_ne_zero (by simp)
      rw [valueFits_some]
      simp only [saturationValue, NumForm.limit]
      cases hs : (numForm d).signed <;> simp only [Bool.false_eq_true, if_false, if_true, reduceCtorEq, false_implies,
        forall_const, and_true] <;> repeat' split
      all_goals omega
    · exact hx
  · rename_i hin
    refine fitsField_number hd ?_ hn rfl rfl
    have pos : 0 < 10 ^ (numForm d).digits := Nat.pos_of_ne_zero (by simp)
    simp only [outOfRange, NumForm.limit, Bool.or_eq_true, Bool.and_eq_true, decide_eq_true_eq, Bool.not_eq_true',
      not_or, not_and, Nat.not_lt, gt_iff_lt] at hin
    rw [valueFits_some]
    refine ⟨by omega, fun hs => ?_⟩
    by_contra hlt
    exact hin.2 (by omega) hs

theorem absentResult_fits (d : FieldDef) (x : FieldInst) : FitsField d (absentResult (numForm d) x) :=
  ⟨by simp [absentResult], .inr rfl⟩

/-- R94, R98 to R106: a computed instance fits. -/
theorem computed_fits {d : FieldDef} (hd : GoodDef d) {x : FieldInst} (hx : FitsField d x) (v : TemplateVersion)
    (c : Context) (p : Nat) : FitsField d (computed v c p d x) := by
  unfold computed
  split
  · rename_i hk
    split
    · exact fitResult_fits hd (by rw [hk]; rfl) hx _ _
    · exact absentResult_fits d x
  · rename_i hk
    exact fitResult_fits hd (by rw [hk]; rfl) hx _ _
  · exact hx

/-- R58: an erased instance fits; derived ones are protected and are not erased. -/
theorem erasedInst_fits {d : FieldDef} {x : FieldInst} (hx : FitsField d x) : FitsField d (erasedInst d x) := by
  refine ⟨by simp [erasedInst], ?_⟩
  simp only [erasedInst]
  split
  · exact .inr rfl
  · exact hx.2

/-- R53: another text of the same width fits. -/
theorem FitsField.withText {d : FieldDef} {x : FieldInst} (hx : FitsField d x) {t : Text} (ht : t.length = d.width)
    (b : Bool) : FitsField d { x with text := t, modified := b } := ⟨ht, hx.2⟩

end Sys2Proof.Machine

/-! PROOFS. The shape of a form on its version, taken apart (R33, R73 to R75, R91, R107): what a sound version says of its
definitions, what a form in its shape says of its instances, and the changes of a form that keep its shape. -/

namespace Sys2Proof.Machine

/-! ### Positions on the screen (R75) -/

/-- R75: a position in rows 1 to 23 and columns 1 to 80. -/
structure OnScreen (q : Pos) : Prop where
  top : 1 ≤ q.row
  bottom : q.row ≤ 23
  left : 1 ≤ q.col
  right : q.col ≤ 80

theorem onScreen_origin : OnScreen ⟨1, 1⟩ := by constructor <;> simp

theorem OnScreen.succ {q : Pos} (h : OnScreen q) : OnScreen q.succ := by
  obtain ⟨_, _, _, _⟩ := h
  unfold Pos.succ
  repeat' split
  all_goals constructor <;> dsimp only <;> omega

theorem OnScreen.pred {q : Pos} (h : OnScreen q) : OnScreen q.pred := by
  obtain ⟨_, _, _, _⟩ := h
  unfold Pos.pred
  repeat' split
  all_goals constructor <;> dsimp only <;> omega

theorem OnScreen.up {q : Pos} (h : OnScreen q) : OnScreen q.up := by
  obtain ⟨_, _, _, _⟩ := h
  unfold Pos.up
  split <;> constructor <;> dsimp only <;> omega

theorem OnScreen.down {q : Pos} (h : OnScreen q) : OnScreen q.down := by
  obtain ⟨_, _, _, _⟩ := h
  unfold Pos.down
  split <;> constructor <;> dsimp only <;> omega

/-! ### Sound versions -/

/-- R3 to R10: a version on a group in its ranges, each definition in the list of its region, and every entry sound. -/
structure SoundVersion (v : TemplateVersion) : Prop where
  band : v.group.visible ≠ 0 → 1 ≤ v.group.first ∧ v.group.first + v.group.visible ≤ 24
  bandless : v.group.visible = 0 → v.rowDefs = [] ∧ v.group.maxRows = 0
  rowLimit : v.group.maxRows ≤ 99
  fixedRegion : ∀ d ∈ v.fixed, d.rowRegion = false
  rowRegion : ∀ d ∈ v.rowDefs, d.rowRegion = true
  entries : SoundTemplate v.group v.fixed v.rowDefs v.literals

theorem templatesSound_iff {s : State} : TemplatesSound s ↔
    (∀ x, s.staging = some x → stagingLaw x = true)
      ∧ ∀ (e : EntryId) (v : TemplateVersion), s.table[e] = some v → SoundVersion v :=
  ⟨fun ⟨hx, hv⟩ => ⟨hx, fun e v h => let ⟨a, b, c, d, f, g⟩ := hv e v h; ⟨a, b, c, d, f, g⟩⟩,
    fun ⟨hx, hv⟩ => ⟨hx, fun e v h => let ⟨a, b, c, d, f, g⟩ := hv e v h; ⟨a, b, c, d, f, g⟩⟩⟩

namespace SoundVersion

variable {v : TemplateVersion} (hv : SoundVersion v)
include hv

theorem good {d : FieldDef} (hd : d ∈ v.fixed ++ v.rowDefs) : GoodDef d := by
  obtain ⟨hfield, -, hkind, -⟩ := hv.entries.fields d hd
  exact goodDef_of_sound hfield hkind

theorem good_of_defOf {r : InstRef} {d : FieldDef} (h : v.defOf r = some d) : GoodDef d := by
  cases r with
  | fixed i => exact hv.good (List.mem_append_left _ (List.mem_of_getElem? h))
  | row p j => exact hv.good (List.mem_append_right _ (List.mem_of_getElem? h))

/-- A version with a row field has a band. -/
theorem visible_pos {d : FieldDef} (hd : d ∈ v.rowDefs) : 1 ≤ v.group.visible := by
  by_contra hlt
  simp [(hv.bandless (by omega)).1] at hd

/-- R10: the start of a FIXED field is on the screen. -/
theorem fixedStart {d : FieldDef} (hd : d ∈ v.fixed) : OnScreen ⟨d.row, d.col⟩ := by
  have good := hv.good (List.mem_append_left _ hd)
  have row := (hv.entries.fields d (List.mem_append_left _ hd)).2.1
  simp only [SoundRow, hv.fixedRegion d hd, Bool.false_eq_true, if_false] at row
  have := good.left; have := good.width; have := good.right
  exact ⟨row.1, row.2.1, good.left, by dsimp only; omega⟩

/-- R3, R10: the start of a ROW field in a slot of the band is on the screen. -/
theorem slotStart {d : FieldDef} (hd : d ∈ v.rowDefs) {n : Nat} (hlo : v.group.first ≤ n)
    (hhi : n < v.group.first + v.group.visible) : OnScreen ⟨n, d.col⟩ := by
  have good := hv.good (List.mem_append_right _ hd)
  have := hv.visible_pos hd
  obtain ⟨hfirst, hlast⟩ := hv.band (by omega)
  have := good.width; have := good.right
  exact ⟨by dsimp only; omega, by dsimp only; omega, good.left, by dsimp only; omega⟩

end SoundVersion

/-! ### Forms in their shape -/

/-- R29, R30: the instances of a definition list, each fitting its definition. -/
abbrev InstsFit (defs : List FieldDef) (insts : List FieldInst) : Prop := List.Forall₂ FitsField defs insts

/-- R30: the instances of a list as they are built. -/
theorem initial_fits {defs : List FieldDef} (hdefs : ∀ d ∈ defs, GoodDef d) : InstsFit defs (defs.map initialInst) :=
  List.forall₂_map_right_iff.mpr (List.forall₂_same.mpr fun d hd => initialInst_fits (hdefs d hd))

/-- R33, R74, R75, R91, R107: what the shape of a form asks, part by part. -/
structure Shaped (v : TemplateVersion) (c : Context) : Prop where
  fixed : InstsFit v.fixed c.fixed
  rows : ∀ r ∈ c.rows, InstsFit v.rowDefs r.insts
  count : c.rows.length ≤ v.group.maxRows
  rowLimit : v.group.maxRows ≤ 99
  window : 1 ≤ c.first ∧ c.first ≤ windowBound v.group c.rows.length
  cursor : OnScreen c.cursor
  deleted : c.deletedTags.length ≤ 99
  deletedOnce : c.deletedTags.Nodup
  tagsOnce : (c.rows.filterMap RowRec.tag).Nodup

/-- A reference to an instance of each definition: a fixed one, or one of a row of the form. -/
theorem mem_allRefs {v : TemplateVersion} {c : Context} {r : InstRef} : r ∈ allRefs v c ↔
    (∃ i, i < v.fixed.length ∧ r = .fixed i)
      ∨ ∃ k j, k < c.rows.length ∧ j < v.rowDefs.length ∧ r = .row (k + 1) j := by
  simp only [allRefs, List.mem_append, List.mem_map, List.mem_flatMap, List.mem_range]
  constructor
  · rintro (⟨i, hi, rfl⟩ | ⟨k, hk, j, hj, rfl⟩)
    · exact .inl ⟨i, hi, rfl⟩
    · exact .inr ⟨k, j, hk, hj, rfl⟩
  · rintro (⟨i, hi, rfl⟩ | ⟨k, j, hk, hj, rfl⟩)
    · exact .inl ⟨i, hi, rfl⟩
    · exact .inr ⟨k, hk, j, hj, rfl⟩

@[simp] theorem Context.row?_succ (c : Context) (k : Nat) : c.row? (k + 1) = c.rows[k]? := rfl

theorem Context.row?_eq_some {c : Context} {p : Nat} {x : RowRec} :
    c.row? p = some x ↔ 1 ≤ p ∧ c.rows[p - 1]? = some x := by
  cases p with
  | zero => simp [Context.row?]
  | succ k => simp

/-- Two lists agree when they are as long and agree wherever both have an entry. -/
theorem forall₂_iff_getElem? {α β : Type} {R : α → β → Prop} {l : List α} {m : List β} :
    List.Forall₂ R l m ↔ l.length = m.length ∧ ∀ (i : Nat) a b, l[i]? = some a → m[i]? = some b → R a b := by
  rw [List.forall₂_iff_get]
  refine and_congr_right fun _ => ⟨fun h i a b ha hb => ?_, fun h i hl hm => ?_⟩
  · obtain ⟨hi, rfl⟩ := List.getElem?_eq_some_iff.mp ha
    obtain ⟨hj, rfl⟩ := List.getElem?_eq_some_iff.mp hb
    exact h i hi hj
  · exact h i _ _ (List.getElem?_eq_getElem hl) (List.getElem?_eq_getElem hm)

/-- The instance a definition list has for an index. -/
theorem InstsFit.getElem? {defs : List FieldDef} {insts : List FieldInst} (h : InstsFit defs insts) {i : Nat}
    {x : FieldInst} (hx : insts[i]? = some x) : ∃ d, defs[i]? = some d ∧ FitsField d x := by
  obtain ⟨hlen, hfit⟩ := forall₂_iff_getElem?.mp h
  obtain ⟨hi, -⟩ := List.getElem?_eq_some_iff.mp hx
  have hd := List.getElem?_eq_getElem (hlen ▸ hi)
  exact ⟨_, hd, hfit i _ x hd hx⟩

/-- An instance of a form in its shape has a definition, and fits it. -/
theorem Shaped.inst {v : TemplateVersion} {c : Context} (h : Shaped v c) {r : InstRef} {x : FieldInst}
    (hx : c.inst? r = some x) : ∃ d, v.defOf r = some d ∧ FitsField d x := by
  cases r with
  | fixed i => exact h.fixed.getElem? hx
  | row p j =>
    obtain ⟨row, hrow, hj⟩ := Option.bind_eq_some_iff.mp hx
    exact (h.rows row (List.mem_of_getElem? (Context.row?_eq_some.mp hrow).2)).getElem? hj

theorem contextLaw_iff {v : TemplateVersion} {c : Context} : contextLaw v c = true ↔ Shaped v c := by
  simp only [contextLaw, Bool.and_eq_true, List.all_eq_true, beq_iff_eq, decide_eq_true_eq]
  constructor
  · rintro ⟨⟨⟨⟨⟨⟨⟨⟨⟨⟨⟨⟨⟨hfixed, hrows⟩, hcount⟩, hlimit⟩, hlo⟩, hhi⟩, htop⟩, hbottom⟩, hleft⟩, hright⟩, hdeleted⟩,
      honce⟩, htags⟩, hinst⟩
    have fits : ∀ r ∈ allRefs v c, ∀ d x, v.defOf r = some d → c.inst? r = some x → FitsField d x := by
      intro r hr d x hd hx
      have := hinst r hr
      simpa [hd, hx, FitsField] using this
    refine ⟨forall₂_iff_getElem?.mpr ⟨hfixed.symm, fun i d x hd hx => ?_⟩, fun row hrow => ?_, hcount, hlimit,
      ⟨hlo, hhi⟩, ⟨htop, hbottom, hleft, hright⟩, hdeleted, honce, htags⟩
    · exact fits (.fixed i) (mem_allRefs.mpr (.inl ⟨i, (List.getElem?_eq_some_iff.mp hd).1, rfl⟩)) d x hd hx
    · obtain ⟨k, hk⟩ := List.mem_iff_getElem?.mp hrow
      refine forall₂_iff_getElem?.mpr ⟨(hrows row hrow).symm, fun j d x hd hx => ?_⟩
      refine fits (.row (k + 1) j) (mem_allRefs.mpr (.inr
        ⟨k, j, (List.getElem?_eq_some_iff.mp hk).1, (List.getElem?_eq_some_iff.mp hd).1, rfl⟩)) d x hd ?_
      simp [Context.inst?, hk, hx]
  · intro h
    refine ⟨⟨⟨⟨⟨⟨⟨⟨⟨⟨⟨⟨⟨h.fixed.length_eq.symm, fun row hrow => (h.rows row hrow).length_eq.symm⟩, h.count⟩, h.rowLimit⟩,
      h.window.1⟩, h.window.2⟩, h.cursor.top⟩, h.cursor.bottom⟩, h.cursor.left⟩, h.cursor.right⟩, h.deleted⟩,
      h.deletedOnce⟩, h.tagsOnce⟩, fun r hr => ?_⟩
    have present : (c.inst? r).isSome = true := by
      rcases mem_allRefs.mp hr with ⟨i, hi, rfl⟩ | ⟨k, j, hk, hj, rfl⟩
      · rw [h.fixed.length_eq] at hi
        simp [Context.inst?, hi]
      · have row := h.rows _ (List.getElem_mem hk)
        rw [row.length_eq] at hj
        simp [Context.inst?, hk, hj]
    obtain ⟨x, hx⟩ := Option.isSome_iff_exists.mp present
    obtain ⟨d, hd, htext, hvalue⟩ := h.inst hx
    simpa [hd, hx, htext] using hvalue

/-! ### Changes of instances -/

theorem InstsFit.modify {defs : List FieldDef} {insts : List FieldInst} (h : InstsFit defs insts) {i : Nat}
    {f : FieldInst → FieldInst} (hf : ∀ d x, defs[i]? = some d → insts[i]? = some x → FitsField d (f x)) :
    InstsFit defs (modifyNth insts i f) := by
  obtain ⟨hlen, hfit⟩ := forall₂_iff_getElem?.mp h
  refine forall₂_iff_getElem?.mpr ⟨by simpa [modifyNth] using hlen, fun k d x hd hx => ?_⟩
  rw [modifyNth, List.getElem?_modify] at hx
  obtain ⟨y, hy, rfl⟩ := Option.map_eq_some_iff.mp hx
  split
  · rename_i e
    subst e
    exact hf d y hd hy
  · exact hfit k d y hd hy

/-- A measure of the rows that the change of one does not touch. -/
theorem map_modifyNth {α β : Type} {g : α → β} {f : α → α} (h : ∀ x, g (f x) = g x) (l : List α) (i : Nat) :
    (modifyNth l i f).map g = l.map g := by
  refine List.ext_getElem? fun k => ?_
  simp only [modifyNth, List.getElem?_map, List.getElem?_modify]
  cases l[k]? with
  | none => rfl
  | some x =>
    by_cases e : i = k
    · simp [e, h]
    · simp [e]

/-- Rows of the same number and tags as before, each of them fitting. -/
theorem Shaped.withRows {v : TemplateVersion} {c : Context} (h : Shaped v c) {rows : List RowRec}
    (htags : rows.map RowRec.tag = c.rows.map RowRec.tag) (hrows : ∀ r ∈ rows, InstsFit v.rowDefs r.insts) :
    Shaped v { c with rows := rows } := by
  have hlen : rows.length = c.rows.length := by simpa using congrArg List.length htags
  refine ⟨h.fixed, hrows, hlen ▸ h.count, h.rowLimit, by simpa only [hlen] using h.window, h.cursor, h.deleted,
    h.deletedOnce, ?_⟩
  have tags : rows.filterMap RowRec.tag = c.rows.filterMap RowRec.tag := by
    simpa only [List.filterMap_map, Function.id_comp] using congrArg (List.filterMap id) htags
  rw [tags]
  exact h.tagsOnce

theorem Shaped.modInst {v : TemplateVersion} {c : Context} (h : Shaped v c) {r : InstRef} {x : FieldInst}
    (hx : ∀ d y, v.defOf r = some d → c.inst? r = some y → FitsField d x) : Shaped v (c.modInst r (fun _ => x)) := by
  cases r with
  | fixed i =>
    exact ⟨h.fixed.modify hx, h.rows, h.count, h.rowLimit, h.window, h.cursor, h.deleted, h.deletedOnce, h.tagsOnce⟩
  | row p j =>
    unfold Context.modInst
    dsimp only
    split
    · exact h
    rename_i hp
    refine h.withRows (map_modifyNth (by intro _; rfl) _ _) fun row hrow => ?_
    obtain ⟨k, hk⟩ := List.mem_iff_getElem?.mp hrow
    rw [modifyNth, List.getElem?_modify] at hk
    obtain ⟨y, hy, rfl⟩ := Option.map_eq_some_iff.mp hk
    have fits := h.rows y (List.mem_of_getElem? hy)
    split
    · rename_i e
      refine fits.modify fun d z hd hz => hx d z hd ?_
      rw [← Nat.succ_pred_eq_of_ne_zero hp, Nat.pred_eq_sub_one, e]
      simp [Context.inst?, hy, hz]
    · exact fits

end Sys2Proof.Machine

/-! PROOFS. An act keeps the form in its shape: the operations an act is made of, the computations of the Tally Unit, what
is under the cursor, and the field exit. -/

namespace Sys2Proof.Machine

/-! ### Changes of the form as a whole -/

section
variable {v : TemplateVersion} {c : Context}

theorem Shaped.withFlags (h : Shaped v c) (insertMode editing adjusted : Bool) :
    Shaped v { c with insertMode := insertMode, editing := editing, adjusted := adjusted } :=
  ⟨h.fixed, h.rows, h.count, h.rowLimit, h.window, h.cursor, h.deleted, h.deletedOnce, h.tagsOnce⟩

theorem Shaped.withCursor (h : Shaped v c) {q : Pos} (hq : OnScreen q) : Shaped v { c with cursor := q } :=
  ⟨h.fixed, h.rows, h.count, h.rowLimit, h.window, hq, h.deleted, h.deletedOnce, h.tagsOnce⟩

/-- R74: a window first row in its range. -/
def InWindowRange (v : TemplateVersion) (c : Context) (f : Nat) : Prop := 1 ≤ f ∧ f ≤ windowBound v.group c.rows.length

theorem Shaped.withFirst (h : Shaped v c) {f : Nat} (hf : InWindowRange v c f) : Shaped v { c with first := f } :=
  ⟨h.fixed, h.rows, h.count, h.rowLimit, hf, h.cursor, h.deleted, h.deletedOnce, h.tagsOnce⟩

theorem Shaped.withDeleted (h : Shaped v c) {tags : List Nat} (hlen : tags.length ≤ 99) (honce : tags.Nodup) :
    Shaped v { c with deletedTags := tags } :=
  ⟨h.fixed, h.rows, h.count, h.rowLimit, h.window, h.cursor, hlen, honce, h.tagsOnce⟩

/-- R74: a clamped window first row is in its range. -/
theorem clampFirst_range (g : Group) (n f : Nat) : 1 ≤ clampFirst g n f ∧ clampFirst g n f ≤ windowBound g n := by
  unfold clampFirst windowBound; omega

/-- R88, R119: a row more, of a tag no other row has. -/
theorem Shaped.insertRow (h : Shaped v c) (p : Nat) {x : RowRec} (hx : InstsFit v.rowDefs x.insts)
    (hcount : c.rows.length < v.group.maxRows) (htag : ∀ t, x.tag = some t → ∀ r ∈ c.rows, r.tag ≠ some t) :
    Shaped v { c with rows := c.rows.take (p - 1) ++ x :: c.rows.drop (p - 1) } := by
  have perm : (c.rows.take (p - 1) ++ x :: c.rows.drop (p - 1)).Perm (x :: c.rows) := by
    simpa only [List.take_append_drop] using List.perm_middle (a := x) (l₁ := c.rows.take (p - 1)) (l₂ := c.rows.drop (p - 1))
  have hlen := perm.length_eq
  simp only [List.length_cons] at hlen
  obtain ⟨hlo, hhi⟩ := h.window
  refine ⟨h.fixed, fun r hr => ?_, by dsimp only; omega, h.rowLimit, ⟨hlo, ?_⟩, h.cursor, h.deleted, h.deletedOnce, ?_⟩
  · rcases List.mem_cons.mp (perm.mem_iff.mp hr) with rfl | hr
    · exact hx
    · exact h.rows r hr
  · unfold windowBound at *
    dsimp only
    omega
  · refine (perm.filterMap RowRec.tag).nodup_iff.mpr ?_
    cases ht : x.tag with
    | none => simpa [List.filterMap_cons, ht] using h.tagsOnce
    | some t =>
      rw [List.filterMap_cons, ht]
      refine List.nodup_cons.mpr ⟨fun hmem => ?_, h.tagsOnce⟩
      obtain ⟨r, hr, hrt⟩ := List.mem_filterMap.mp hmem
      exact htag t ht r hr hrt

/-- R90, R120: fewer rows, with the window first row clamped again. -/
theorem Shaped.withFewerRows (h : Shaped v c) {rows : List RowRec} (hrows : rows.Sublist c.rows) (f : Nat) :
    Shaped v { c with rows := rows, first := clampFirst v.group rows.length f } :=
  ⟨h.fixed, fun r hr => h.rows r (hrows.subset hr), hrows.length_le.trans h.count, h.rowLimit,
    clampFirst_range _ _ _, h.cursor, h.deleted, h.deletedOnce, h.tagsOnce.sublist (hrows.filterMap _)⟩

theorem removeRow_sublist (rows : List RowRec) (p : Nat) : (rows.take (p - 1) ++ rows.drop p).Sublist rows := by
  conv_rhs => rw [← List.take_append_drop (p - 1) rows]
  exact (List.Sublist.refl _).append (List.drop_sublist_drop_left rows (Nat.sub_le p 1))

end

/-! ### Acts on a form in its shape -/

/-- A sound version, and a form in its shape on it. -/
structure Work.Fits (w : Work) : Prop where
  version : SoundVersion w.v
  form : Shaped w.v w.c

/-- The size of a form's row list, its window and its cursor are as before. -/
structure SameFrame (c c' : Context) : Prop where
  rows : c'.rows.length = c.rows.length
  first : c'.first = c.first
  cursor : c'.cursor = c.cursor

namespace SameFrame

variable {a b c : Context}

theorem refl (c : Context) : SameFrame c c := ⟨rfl, rfl, rfl⟩

theorem trans (h : SameFrame a b) (k : SameFrame b c) : SameFrame a c :=
  ⟨k.rows.trans h.rows, k.first.trans h.first, k.cursor.trans h.cursor⟩

theorem modInst (c : Context) (r : InstRef) (f : FieldInst → FieldInst) : SameFrame c (c.modInst r f) := by
  unfold Context.modInst
  split
  · exact ⟨rfl, rfl, rfl⟩
  · split
    · exact .refl c
    · exact ⟨by simp [modifyNth], rfl, rfl⟩

end SameFrame

section
variable {w : Work}

/-- An operation that keeps the version, with a form in its shape, fits. -/
theorem Work.Fits.of_form {w' : Work} (hw : w.Fits) (k : Keeps w w') (hc : Shaped w.v w'.c) : w'.Fits :=
  ⟨k.version ▸ hw.version, k.version ▸ hc⟩

theorem Work.Fits.setLock (hw : w.Fits) (x : StationState) (l : Lock) : (w.setLock x l).Fits :=
  hw.of_form (Work.setLock_keeps _ _ _) (by simpa using hw.form)

theorem Work.Fits.setAdjusted (hw : w.Fits) (b : Bool) : (w.setAdjusted b).Fits :=
  hw.of_form (Work.setAdjusted_keeps _ _) (by simpa using hw.form.withFlags w.c.insertMode w.c.editing b)

theorem Work.Fits.setInsertMode (hw : w.Fits) (b : Bool) : (w.setInsertMode b).Fits :=
  hw.of_form (Work.setInsertMode_keeps _ _) (by simpa using hw.form.withFlags b w.c.editing w.c.adjusted)

theorem Work.Fits.setEditing (hw : w.Fits) (b : Bool) : (w.setEditing b).Fits :=
  hw.of_form (Work.setEditing_keeps _ _) (hw.form.withFlags w.c.insertMode b w.c.adjusted)

theorem Work.Fits.operatorError (hw : w.Fits) (e : ErrorCode) : (w.operatorError e).Fits :=
  hw.of_form (Work.operatorError_keeps _ _) (by simpa using hw.form)

theorem Work.Fits.latch (hw : w.Fits) (k : Byte) : (w.latch k).Fits :=
  hw.of_form (Work.latch_keeps _ _) (by simpa using hw.form)

theorem Work.Fits.moveCursor (hw : w.Fits) {q : Pos} (hq : OnScreen q) : (w.moveCursor q).Fits :=
  hw.of_form (Work.moveCursor_keeps _ _) (by simpa using hw.form.withCursor hq)

theorem Work.Fits.setFirst (hw : w.Fits) {f : Nat} (hf : InWindowRange w.v w.c f) : (w.setFirst f).Fits :=
  hw.of_form (Work.setFirst_keeps _ _) (by simpa using hw.form.withFirst hf)

theorem Work.Fits.putInst (hw : w.Fits) {r : InstRef} {x : FieldInst}
    (hx : ∀ d y, w.v.defOf r = some d → w.c.inst? r = some y → FitsField d x) : (w.putInst r x).Fits := by
  refine hw.of_form (Work.putInst_keeps _ _ _) ?_
  rw [Work.putInst_c]
  split
  · exact hw.form.modInst hx
  · exact hw.form

theorem Work.putInst_frame (w : Work) (r : InstRef) (x : FieldInst) : SameFrame w.c (w.putInst r x).c := by
  rw [Work.putInst_c]
  split
  · exact .modInst _ _ _
  · exact .refl _

/-! ### The Tally Unit -/

theorem Work.Fits.compute (hw : w.Fits) (r : InstRef) : (w.compute r).Fits := by
  unfold Work.compute
  split
  · rename_i d x hd hx
    refine hw.putInst fun d' y hd' hy => ?_
    obtain ⟨e, he, hfit⟩ := hw.form.inst hx
    cases hd.symm.trans hd'
    cases hd.symm.trans he
    exact computed_fits (hw.version.good_of_defOf hd) hfit _ _ _
  · exact hw

theorem Work.compute_frame (w : Work) (r : InstRef) : SameFrame w.c (w.compute r).c := by
  unfold Work.compute
  split
  · exact Work.putInst_frame _ _ _
  · exact .refl _

/-- What every step of a fold keeps, the fold keeps. -/
theorem foldl_keeps {α β : Type} {P : β → Prop} {f : β → α → β} (h : ∀ b a, P b → P (f b a)) (l : List α) {b : β}
    (hb : P b) : P (l.foldl f b) :=
  List.foldlRecOn l f hb fun b hb a _ => h b a hb

/-- Computations of derived instances: the work they end with fits, and its frame is as before. -/
structure Work.Computed (w w' : Work) : Prop where
  fits : w.Fits → w'.Fits
  frame : SameFrame w.c w'.c

namespace Work.Computed

theorem refl (w : Work) : Work.Computed w w := ⟨id, .refl _⟩

theorem trans {a b c : Work} (h : Work.Computed a b) (k : Work.Computed b c) : Work.Computed a c :=
  ⟨fun ha => k.fits (h.fits ha), h.frame.trans k.frame⟩

theorem compute (w : Work) (r : InstRef) : Work.Computed w (w.compute r) := ⟨fun h => h.compute r, w.compute_frame r⟩

theorem foldl {α : Type} {f : Work → α → Work} (h : ∀ w a, Work.Computed w (f w a)) (l : List α) (w : Work) :
    Work.Computed w (l.foldl f w) :=
  foldl_keeps (P := Work.Computed w) (fun b a hb => hb.trans (h b a)) l (.refl w)

theorem computeRow (w : Work) (p : Nat) : Work.Computed w (w.computeRow p) := foldl (fun w _ => compute w _) _ w

theorem computeAllSums (w : Work) : Work.Computed w w.computeAllSums := foldl (fun w _ => compute w _) _ w

theorem computeSumsOf (w : Work) (ids : List Nat) : Work.Computed w (w.computeSumsOf ids) :=
  foldl (fun w _ => compute w _) _ w

theorem computeProductsOf (w : Work) (l : List (Nat × Nat)) : Work.Computed w (w.computeProductsOf l).1 :=
  foldl_keeps (P := fun p : Work × List Nat => Work.Computed w p.1) (f := Work.computeProduct)
    (fun p _ hp => hp.trans (compute p.1 _)) _ (b := (w, _)) (.refl w)

theorem tally (w : Work) (l : List (Nat × Nat)) : Work.Computed w (w.tally l) :=
  (computeProductsOf w l).trans (computeSumsOf _ _)

theorem tallyAll (w : Work) : Work.Computed w w.tallyAll :=
  (foldl (fun w k => computeRow w (k + 1)) _ w).trans (computeAllSums _)

end Work.Computed

/-! ### The instance under the cursor (R50) -/

/-- R50: what is under a position starts on its screen row, and its columns cover it. -/
theorem instAt_spec {v : TemplateVersion} {c : Context} {q : Pos} {r : InstRef} {d : FieldDef}
    (h : instAt v c q = some r) (hd : v.defOf r = some d) :
    fieldStart v c r = ⟨q.row, d.col⟩ ∧ d.col ≤ q.col ∧ q.col < d.col + d.width := by
  unfold instAt at h
  split at h
  · rename_i hband
    obtain ⟨p, hp, hj⟩ := Option.bind_eq_some_iff.mp h
    obtain ⟨j, hfind, rfl⟩ := Option.map_eq_some_iff.mp hj
    obtain ⟨hlt, hcov, -⟩ := List.findIdx?_eq_some_iff_getElem.mp hfind
    have hget : v.rowDefs[j]? = some d := hd
    obtain ⟨_, rfl⟩ := List.getElem?_eq_some_iff.mp hget
    simp only [coversCol, Bool.and_eq_true, decide_eq_true_eq] at hcov
    simp only [isBandRow, Bool.and_eq_true, decide_eq_true_eq] at hband
    simp only [Context.slotRow] at hp
    split at hp
    · cases hp
      refine ⟨?_, hcov⟩
      simp only [fieldStart, hget, Pos.mk.injEq, and_true]
      omega
    · cases hp
  · obtain ⟨i, hi, rfl⟩ := Option.map_eq_some_iff.mp h
    obtain ⟨hlt, hcov, -⟩ := List.findIdx?_eq_some_iff_getElem.mp hi
    have hget : v.fixed[i]? = some d := hd
    obtain ⟨_, rfl⟩ := List.getElem?_eq_some_iff.mp hget
    simp only [coversCol, Bool.and_eq_true, decide_eq_true_eq, beq_iff_eq] at hcov
    refine ⟨?_, hcov.2⟩
    simp only [fieldStart, hget, hcov.1]

/-- R50: the instance under the cursor, with its definition. -/
theorem under_some {v : TemplateVersion} {c : Context} {u : Under} (h : under v c = some u) :
    instAt v c c.cursor = some u.ref ∧ v.defOf u.ref = some u.field ∧ c.inst? u.ref = some u.inst := by
  obtain ⟨r, hr, h⟩ := Option.bind_eq_some_iff.mp h
  obtain ⟨d, hd, h⟩ := Option.bind_eq_some_iff.mp h
  obtain ⟨x, hx, rfl⟩ := Option.map_eq_some_iff.mp h
  exact ⟨hr, hd, hx⟩

/-- What an act on a form in its shape needs of the instance under the cursor. -/
structure Under.Fits (w : Work) (u : Under) : Prop where
  defined : w.v.defOf u.ref = some u.field
  present : w.c.inst? u.ref = some u.inst
  good : GoodDef u.field
  fits : FitsField u.field u.inst
  start : OnScreen (fieldStart w.v w.c u.ref)
  offset : u.offset w.c < u.inst.text.length

theorem Work.Fits.under (hw : w.Fits) {u : Under} (h : w.under = some u) : u.Fits w := by
  obtain ⟨hat, hd, hx⟩ := under_some h
  have good := hw.version.good_of_defOf hd
  obtain ⟨hstart, hlo, hhi⟩ := instAt_spec hat hd
  obtain ⟨d, hd', fits⟩ := hw.form.inst hx
  cases hd.symm.trans hd'
  have cursor := hw.form.cursor
  refine ⟨hd, hx, good, fits, ?_, ?_⟩
  · have := good.width; have := good.right
    rw [hstart]
    exact ⟨cursor.top, cursor.bottom, good.left, by dsimp only; omega⟩
  · rw [fits.1]
    unfold Under.offset
    omega

/-- A write to the instance under the cursor. -/
theorem Work.Fits.putUnder (hw : w.Fits) {u : Under} (hu : u.Fits w) {x : FieldInst} (hx : FitsField u.field x) :
    (w.putInst u.ref x).Fits :=
  hw.putInst fun d _ hd _ => by
    cases hu.defined.symm.trans hd
    exact hx

theorem Work.Fits.editText (hw : w.Fits) {u : Under} (hu : u.Fits w) {t : Text}
    (ht : t.length = u.inst.text.length) : (w.editText u t).Fits :=
  (hw.putUnder hu (hu.fits.withText (ht.trans hu.fits.1) true)).setEditing true

/-! ### The field exit (R59, R63) -/

/-- R66: FIELD MINUS is taken in signed fields. -/
def Work.NegatesSigned (w : Work) (negate : Bool) : Prop :=
  negate = true → ∀ u, w.under = some u → (numForm u.field).signed = true

theorem Work.negatesSigned_false (w : Work) : w.NegatesSigned false := fun h => nomatch h

theorem Work.Fits.exitField (hw : w.Fits) {negate : Bool} (hneg : w.NegatesSigned negate) :
    (w.exitField negate).work.Fits := by
  unfold Work.exitField
  split
  · exact hw
  rename_i u hu
  have fits := hw.under hu
  split
  · exact hw
  split
  · exact (hw.moveCursor fits.start).operatorError _
  · rename_i y hy
    have put := (hw.putUnder fits
      (exitCheck_fits fits.good fits.fits (fun h => hneg h u hu) hy)).setEditing false
    simp only [ExitOutcome.work]
    split
    · exact put.setAdjusted true
    · exact put

theorem Work.exitField_passed_frame {w' : Work} {negate : Bool} {l : List (Nat × Nat)}
    (h : w.exitField negate = .passed w' l) : SameFrame w.c w'.c := by
  unfold Work.exitField at h
  split at h
  · cases h; exact .refl _
  split at h
  · cases h; exact .refl _
  split at h
  · cases h
  · rename_i u _ _ _ y _
    cases h
    have put := Work.putInst_frame w u.ref { u.inst with text := y.text, value := y.value }
    split
    · exact put.trans (by simp only [Work.setAdjusted_c]; exact ⟨rfl, rfl, rfl⟩)
    · exact put.trans ⟨rfl, rfl, rfl⟩

/-- R77: an exit, then a roll within the window's range and a move on the screen. -/
theorem Work.Fits.exitThenMove (hw : w.Fits) (b : Bool) {negate : Bool} (hneg : w.NegatesSigned negate)
    (l : List (Nat × Nat)) {f : Nat} (hf : InWindowRange w.v w.c f) {q : Pos} (hq : OnScreen q) :
    (w.exitThenMove b negate l f q).Fits := by
  have exited : (if b then w.exitField negate else .passed w []).work.Fits := by
    split
    · exact hw.exitField hneg
    · exact hw
  unfold Work.exitThenMove
  split
  · rename_i h
    rw [h] at exited
    exact (Work.Computed.tally _ _).fits exited
  · rename_i w' changed h
    have keeps : Keeps w w' ∧ SameFrame w.c w'.c := by
      split at h
      · exact ⟨Work.exitField_passed_keeps h, Work.exitField_passed_frame h⟩
      · cases h; exact ⟨.refl _, .refl _⟩
    rw [h] at exited
    have tallied := Work.Computed.tally w' (if l.isEmpty then changed else l)
    refine ((tallied.fits exited).setFirst ?_).moveCursor hq
    have version := (Work.tally_keeps w' (if l.isEmpty then changed else l)).version
    simpa only [InWindowRange, version, keeps.1.version, tallied.frame.rows, keeps.2.rows] using hf

end

end Sys2Proof.Machine

/-! PROOFS. Every keystroke keeps the form in its shape: the targets of the cursor keys lie on the screen, the texts of
the data keys are as wide as their fields, and the item lines keep the row list in order. -/

namespace Sys2Proof.Machine

/-! ### The targets of the tab set (R76) -/

section
variable {v : TemplateVersion} {c : Context}

theorem TabStart.onScreen (hv : SoundVersion v) {q : Pos} (h : TabStart v c q) : OnScreen q := by
  rcases h with ⟨d, hd, -, rfl⟩ | ⟨k, hk, -, -, d, hd, -, rfl⟩
  · exact hv.fixedStart hd
  · exact hv.slotStart hd (by omega) (by omega)

theorem HomeTarget.onScreen (hv : SoundVersion v) {q : Pos} (h : HomeTarget v c q) : OnScreen q := by
  rcases h with ⟨h, -⟩ | ⟨-, rfl⟩
  · exact h.onScreen hv
  · exact onScreen_origin

theorem ForwardTarget.onScreen (hv : SoundVersion v) {P : Pos → Prop} {q : Pos} (h : ForwardTarget v c P q) :
    OnScreen q := by
  rcases h with ⟨h, -⟩ | ⟨-, h⟩
  · exact h.onScreen hv
  · exact h.onScreen hv

theorem BackwardTarget.onScreen (hv : SoundVersion v) {q : Pos} (h : BackwardTarget v c q) : OnScreen q := by
  rcases h with ⟨h, -⟩ | ⟨-, ⟨h, -⟩ | ⟨-, rfl⟩⟩
  · exact h.onScreen hv
  · exact h.onScreen hv
  · exact onScreen_origin

/-- The columns of the first and the last open row field are those of row definitions. -/
theorem firstOpenCol_mem {n : Nat} (h : firstOpenCol v = some n) : ∃ d ∈ v.rowDefs, d.col = n := by
  obtain ⟨d, hd, rfl⟩ := Option.map_eq_some_iff.mp h
  exact ⟨d, List.mem_of_mem_filter (List.mem_of_head? hd), rfl⟩

theorem lastOpenCol_mem {n : Nat} (h : lastOpenCol v = some n) : ∃ d ∈ v.rowDefs, d.col = n := by
  obtain ⟨d, hd, rfl⟩ := Option.map_eq_some_iff.mp h
  exact ⟨d, List.mem_of_mem_filter (List.mem_of_getLast? hd), rfl⟩

/-- A position in a slot of the band, in the column of a row definition, or in column 1. -/
theorem slotCol_onScreen (hv : SoundVersion v) {o : Option Nat} (ho : ∀ n, o = some n → ∃ d ∈ v.rowDefs, d.col = n)
    {row : Nat} (hlo : v.group.first ≤ row) (hhi : row < v.group.first + v.group.visible) :
    OnScreen ⟨row, o.getD 1⟩ := by
  cases o with
  | none =>
    obtain ⟨hfirst, hlast⟩ := hv.band (by omega)
    exact ⟨by dsimp only; omega, by dsimp only; omega, by simp, by simp⟩
  | some n =>
    obtain ⟨d, hd, rfl⟩ := ho n rfl
    exact hv.slotStart hd hlo hhi

/-- R50, R76: a field start is on the screen, for a row instance when its row is in the window. -/
theorem fieldStart_onScreen (hv : SoundVersion v) (hc : OnScreen c.cursor) {r : InstRef}
    (hr : ∀ p j, r = .row p j → j < v.rowDefs.length → c.first ≤ p ∧ p < c.first + v.group.visible) :
    OnScreen (fieldStart v c r) := by
  unfold fieldStart
  cases r with
  | fixed i =>
    cases h : v.fixed[i]? with
    | none => simpa [h] using hc
    | some d => simpa [h] using hv.fixedStart (List.mem_of_getElem? h)
  | row p j =>
    cases h : v.rowDefs[j]? with
    | none => simpa [h] using hc
    | some d =>
      obtain ⟨hlo, hhi⟩ := hr p j rfl (List.getElem?_eq_some_iff.mp h).1
      simpa [h] using hv.slotStart (List.mem_of_getElem? h) (n := v.group.first + p - c.first) (by omega) (by omega)

/-- R74: the window that a clamp to a row of the list gives shows it. -/
theorem clampFirst_shows {g : Group} {n p : Nat} (hlo : 1 ≤ p) (hhi : p ≤ n) (hv : 1 ≤ g.visible) :
    clampFirst g n p ≤ p ∧ p < clampFirst g n p + g.visible := by
  unfold clampFirst windowBound
  omega

theorem Context.slotRow_eq_some {k p : Nat} (h : c.slotRow k = some p) :
    p = c.first + k - 1 ∧ 1 ≤ p ∧ p ≤ c.rows.length := by
  simp only [Context.slotRow] at h
  split at h
  · rename_i hp
    simp only [Bool.and_eq_true, decide_eq_true_eq] at hp
    cases h
    exact ⟨rfl, hp⟩
  · cases h

theorem Context.slotRow_eq_none {k : Nat} (h : c.slotRow k = none) (hp : 1 ≤ c.first + k - 1) :
    c.rows.length < c.first + k - 1 := by
  simp only [Context.slotRow] at h
  split at h
  · cases h
  · rename_i hn
    simp only [Bool.and_eq_true, decide_eq_true_eq, not_and] at hn
    have := hn hp
    omega

end

section
variable {w : Work}

/-! ### Cursor keys (R77 to R84) -/

theorem Work.Fits.keepsFirst (hw : w.Fits) : InWindowRange w.v w.c w.c.first := hw.form.window

/-- R79: at the foot of the window the next row is shown, and its first open field is on the screen. -/
theorem Work.Fits.foot (hw : w.Fits) (h : w.atFoot = true) :
    InWindowRange w.v w.c (w.c.first + 1) ∧ OnScreen w.footTarget := by
  simp only [Work.atFoot, Bool.and_eq_true, decide_eq_true_eq, beq_iff_eq, Option.isSome_iff_exists] at h
  obtain ⟨⟨⟨n, hn⟩, hroom⟩, -⟩ := h
  obtain ⟨d, hd, -⟩ := firstOpenCol_mem hn
  have := hw.version.visible_pos hd
  refine ⟨⟨by omega, ?_⟩, slotCol_onScreen hw.version (fun _ => firstOpenCol_mem) (by omega) (by omega)⟩
  unfold Work.rowCount at hroom
  unfold windowBound
  omega

theorem Work.Fits.tabDecision (hw : w.Fits) :
    InWindowRange w.v w.c w.tabDecision.1 ∧ OnScreen w.tabDecision.2 := by
  unfold Work.tabDecision
  split
  · rename_i h
    exact hw.foot (Bool.and_eq_true_iff.mp h).1
  · exact ⟨hw.keepsFirst, (nextTab_target _ _ _).onScreen hw.version⟩

theorem Work.Fits.newlineDecision (hw : w.Fits) :
    InWindowRange w.v w.c w.newlineDecision.1 ∧ OnScreen w.newlineDecision.2 := by
  unfold Work.newlineDecision
  split
  · rename_i h
    exact hw.foot h
  · exact ⟨hw.keepsFirst, (nextRowTab_target _ _ _).onScreen hw.version⟩

theorem Work.Fits.ownStart (hw : w.Fits) {q : Pos} (h : w.ownStart = some q) : OnScreen q := by
  unfold Work.ownStart at h
  split at h
  · rename_i u hu
    split at h <;> cases h
    exact (hw.under hu).start
  · cases h

theorem Work.Fits.backtabDecision (hw : w.Fits) :
    InWindowRange w.v w.c w.backtabDecision.1 ∧ OnScreen w.backtabDecision.2 := by
  unfold Work.backtabDecision
  split
  · rename_i q hq
    exact ⟨hw.keepsFirst, hw.ownStart hq⟩
  split
  · rename_i hhead
    simp only [Work.atHead, Bool.and_eq_true, decide_eq_true_eq] at hhead
    obtain ⟨⟨hfirst, -⟩, hopen⟩ := hhead
    cases hcol : firstOpenCol w.v with
    | none => simp [hcol] at hopen
    | some n =>
      obtain ⟨d, hd, -⟩ := firstOpenCol_mem hcol
      have := hw.version.visible_pos hd
      obtain ⟨hlo, hhi⟩ := hw.form.window
      exact ⟨⟨by dsimp only; omega, by dsimp only; omega⟩,
        slotCol_onScreen hw.version (fun _ => lastOpenCol_mem) (by omega) (by omega)⟩
  · exact ⟨hw.keepsFirst, (previousTab_target _ _).onScreen hw.version⟩

theorem Work.Fits.moveAsTab (hw : w.Fits) {negate : Bool} (hneg : w.NegatesSigned negate) (l : List (Nat × Nat)) :
    (w.moveAsTab negate l).Fits :=
  hw.exitThenMove true hneg l hw.tabDecision.1 hw.tabDecision.2

/-- An exit that is not FIELD MINUS, and a move. -/
theorem Work.Fits.exitTo (hw : w.Fits) (b : Bool) {f : Nat} (hf : InWindowRange w.v w.c f) {q : Pos} (hq : OnScreen q) :
    (w.exitThenMove b false [] f q).Fits :=
  hw.exitThenMove b w.negatesSigned_false [] hf hq

theorem Work.Fits.arrow (hw : w.Fits) {q : Pos} (hq : OnScreen q) : (w.arrow q).Fits :=
  hw.exitTo _ hw.keepsFirst hq

theorem Work.Fits.rollTo (hw : w.Fits) (f : Nat) : (w.rollTo f).Fits := by
  unfold Work.rollTo
  split
  · exact hw
  · exact hw.exitTo _ (clampFirst_range _ _ _) hw.form.cursor

/-! ### Data keys and erasing (R52 to R58) -/

theorem typedText_length {t : Text} {o : Nat} (ho : o < t.length) (b : Bool) (ch : Byte) :
    (typedText b t o ch).length = t.length := by
  unfold typedText
  split
  · simp only [List.length_append, List.length_take, List.length_cons, List.length_dropLast, List.length_drop]
    omega
  · exact List.length_set

theorem blankFrom_length (t : Text) (o : Nat) : (blankFrom t o).length = t.length := by
  simp only [blankFrom, List.length_append, List.length_take, spaces_length]
  omega

theorem deleteAt_length {t : Text} {o : Nat} (ho : o < t.length) :
    (t.take o ++ t.drop (o + 1) ++ [space]).length = t.length := by
  simp only [List.length_append, List.length_take, List.length_drop, List.length_singleton]
  omega

/-- R55: the advance behind a data key, whose field is under the cursor. -/
theorem Work.Fits.advance (hw : w.Fits) {d : FieldDef} (hd : GoodDef d) : (w.advance d).Fits := by
  have cursor := hw.form.cursor
  have := hd.right
  unfold Work.advance
  split
  · exact hw.moveCursor ⟨cursor.top, cursor.bottom, by dsimp only; omega, by dsimp only; omega⟩
  split
  · exact hw.moveAsTab w.negatesSigned_false []
  · exact hw.exitTo true hw.keepsFirst cursor.succ

theorem Work.Fits.dataKey (hw : w.Fits) (ch : Byte) : (w.dataKey ch).Fits := by
  unfold Work.dataKey
  split
  · exact hw.operatorError _
  rename_i u hu
  have fits := hw.under hu
  split
  · exact hw.operatorError _
  split
  · exact hw.operatorError _
  split
  · exact hw.operatorError _
  · exact (hw.editText fits (typedText_length fits.offset _ ch)).advance fits.good

theorem Work.openUnder_some {u : Under} (h : w.openUnder = some u) : w.under = some u := by
  unfold Work.openUnder at h
  split at h
  · rename_i hu
    split at h <;> cases h
    exact hu
  · cases h

theorem Work.Fits.deleteKey (hw : w.Fits) : w.deleteKey.Fits := by
  unfold Work.deleteKey
  split
  · exact hw.operatorError _
  · rename_i u hu
    have fits := hw.under (Work.openUnder_some hu)
    exact hw.editText fits (deleteAt_length fits.offset)

theorem Work.Fits.eraseEofKey (hw : w.Fits) : w.eraseEofKey.Fits := by
  unfold Work.eraseEofKey
  split
  · exact hw.operatorError _
  · rename_i u hu
    exact hw.editText (hw.under (Work.openUnder_some hu)) (blankFrom_length _ _)

theorem Work.Fits.eraseInst {p : Work × List (Nat × Nat)} (hp : p.1.Fits) (r : InstRef) :
    (Work.eraseInst p r).1.Fits := by
  unfold Work.eraseInst
  split
  · rename_i d x hd hx
    split
    · exact hp
    · refine hp.putInst fun e _ he _ => ?_
      obtain ⟨d', hd', fits⟩ := hp.form.inst hx
      cases hd.symm.trans hd'
      cases hd.symm.trans he
      exact erasedInst_fits fits
  · exact hp

theorem Work.Fits.eraseInputKey (hw : w.Fits) : w.eraseInputKey.Fits := by
  have erased : ((allRefs w.v w.c).foldl Work.eraseInst (w, [])).1.Fits :=
    foldl_keeps (P := fun p : Work × List (Nat × Nat) => p.1.Fits) (f := Work.eraseInst) (fun _ r hp => hp.eraseInst r)
      _ (b := (w, [])) hw
  have closed := erased.setEditing false
  exact (Work.Computed.tally _ _).fits (closed.moveCursor ((homePos_target _ _).onScreen closed.version))

/-! ### Keys that exit the field (R65 to R67) -/

theorem Work.Fits.fieldExitKey (hw : w.Fits) : w.fieldExitKey.Fits := by
  unfold Work.fieldExitKey
  split
  · exact hw.operatorError _
  · rename_i u hu
    exact (hw.editText (hw.under (Work.openUnder_some hu)) (blankFrom_length _ _)).moveAsTab
      (Work.negatesSigned_false _) []

/-- An edit leaves the cursor in the same field. -/
theorem Work.editText_under_field {u u' : Under} (h : w.under = some u) {t : Text}
    (h' : (w.editText u t).under = some u') : u'.field = u.field := by
  have frame := Work.putInst_frame w u.ref { u.inst with text := t, modified := true }
  obtain ⟨hat, hd, -⟩ := under_some h
  obtain ⟨hat', hd', -⟩ := under_some h'
  have version : (w.editText u t).v = w.v := (Work.editText_keeps w u t).version
  have form : instAt w.v (w.editText u t).c (w.editText u t).c.cursor = instAt w.v w.c w.c.cursor := by
    simp only [Work.editText, Work.setEditing_c, frame.cursor]
    simp only [instAt, Context.slotRow, frame.rows, frame.first]
  rw [version] at hat' hd'
  rw [form, hat] at hat'
  rw [← Option.some.inj hat'] at hd'
  exact Option.some.inj (hd'.symm.trans hd)

theorem Work.Fits.fieldMinusKey (hw : w.Fits) : w.fieldMinusKey.Fits := by
  unfold Work.fieldMinusKey
  split
  · exact hw.operatorError _
  rename_i u hu
  have hu := Work.openUnder_some hu
  split
  · rename_i hsigned
    refine (hw.editText (hw.under hu) (blankFrom_length _ _)).moveAsTab (fun _ u' hu' => ?_) []
    rw [Work.editText_under_field hu hu']
    exact (Bool.and_eq_true_iff.mp hsigned).2
  · exact hw.operatorError _

/-- R67: what DUP copies from is an instance of the same definition. -/
theorem Work.Fits.dupSource (hw : w.Fits) {u : Under} (hu : u.Fits w) {src : FieldInst}
    (h : dupSource w.c u.ref = some src) : FitsField u.field src := by
  have defined := hu.defined
  unfold Machine.dupSource at h
  split at h
  · cases h
  rename_i p j href
  split at h
  · obtain ⟨d, hd, fits⟩ := hw.form.inst h
    rw [href] at defined
    cases (show w.v.defOf (.row (p - 1) j) = w.v.defOf (.row p j) from rfl).symm.trans hd |>.symm.trans defined
    exact fits
  · cases h

theorem Work.Fits.dupKey (hw : w.Fits) : w.dupKey.Fits := by
  unfold Work.dupKey
  split
  · exact hw.of_form (Work.alarm_keeps w) hw.form
  rename_i u hu
  have fits := hw.under (Work.openUnder_some hu)
  split
  · exact hw.of_form (Work.alarm_keeps w) hw.form
  rename_i src hsrc
  have source := hw.dupSource fits hsrc
  extract_lets value edited
  have copied : FitsField u.field { u.inst with text := src.text, value := value, modified := true } := by
    refine ⟨source.1, ?_⟩
    simp only [value]
    split
    · exact source.2
    · exact fits.fits.2
  exact ((hw.putUnder fits copied).setEditing true).moveAsTab (Work.negatesSigned_false _) _

/-! ### Item lines (R87 to R91) -/

/-- R88: the place of the operator's row, and the start of its first open field. -/
theorem Work.Fits.newRowStart (hw : w.Fits) (hband : isBandRow w.v.group w.c.cursor.row = true) {p : Nat}
    (hp : p = (w.c.slotRow w.cursorSlot).getD (w.rowCount + 1)) : OnScreen (w.newRowStart p) := by
  simp only [isBandRow, Bool.and_eq_true, decide_eq_true_eq] at hband
  obtain ⟨hlo, hhi⟩ := hw.form.window
  unfold windowBound at hhi
  have place : w.v.group.first ≤ w.v.group.first + p - w.c.first
      ∧ w.v.group.first + p - w.c.first ≤ w.c.cursor.row := by
    unfold Work.cursorSlot Work.rowCount at hp
    cases h : w.c.slotRow (w.c.cursor.row + 1 - w.v.group.first) with
    | some k =>
      obtain ⟨hk, -, -⟩ := Context.slotRow_eq_some h
      rw [h, Option.getD_some] at hp
      omega
    | none =>
      have := Context.slotRow_eq_none h (by omega)
      rw [h, Option.getD_none] at hp
      omega
  have col : w.newRowStart p = ⟨w.v.group.first + p - w.c.first,
      ((firstOpenCol w.v).or (w.v.rowDefs.head?.map FieldDef.col)).getD 1⟩ := by
    unfold Work.newRowStart
    cases firstOpenCol w.v <;> rfl
  rw [col]
  refine slotCol_onScreen hw.version (fun n hn => ?_) place.1 (by omega)
  cases h : firstOpenCol w.v with
  | some m =>
    rw [h] at hn
    cases hn
    exact firstOpenCol_mem h
  | none =>
    rw [h, Option.none_or] at hn
    obtain ⟨d, hd, rfl⟩ := Option.map_eq_some_iff.mp hn
    exact ⟨d, List.mem_of_head? hd, rfl⟩

theorem Work.Fits.insertOperatorRow (hw : w.Fits) (hband : isBandRow w.v.group w.c.cursor.row = true)
    (hcount : w.rowCount < w.v.group.maxRows) (l : List (Nat × Nat)) : (w.insertOperatorRow l).Fits := by
  unfold Work.insertOperatorRow
  extract_lets p inserted placed counted
  have start : OnScreen (w.newRowStart p) := hw.newRowStart hband (by
    simp only [p]
    cases w.c.slotRow w.cursorSlot <;> rfl)
  have rowGood : ∀ d ∈ w.v.rowDefs, GoodDef d := fun d hd => hw.version.good (List.mem_append_right _ hd)
  have hi : inserted.Fits := ⟨hw.version, hw.form.insertRow p (initial_fits rowGood) hcount
    (fun _ h => by simp [initialRow] at h)⟩
  have hp : placed.Fits := hi.moveCursor (show OnScreen (inserted.newRowStart p) from start)
  have hc : counted.Fits :=
    ((Work.Computed.computeRow placed p).trans (.computeProductsOf (placed.computeRow p) (l.map (behindInsert p)))).fits hp
  have summed := (Work.Computed.computeAllSums counted).fits hc
  exact summed.of_form ((Work.dirty_keeps _ .band).trans (Work.markCursor_keeps _)) (by simpa using summed.form)

theorem Work.Fits.rowInsertKey (hw : w.Fits) : w.rowInsertKey.Fits := by
  have exited := hw.exitField w.negatesSigned_false
  unfold Work.rowInsertKey
  split
  · exact hw.operatorError _
  rename_i hallowed
  split
  · exact hw.operatorError _
  rename_i hroom
  split
  · exact hw.operatorError _
  split
  · rename_i h
    rwa [h] at exited
  · rename_i w' changed h
    replace exited : w'.Fits := by rwa [h] at exited
    have keeps := Work.exitField_passed_keeps h
    have frame := Work.exitField_passed_frame h
    simp only [Bool.or_eq_true, Bool.not_eq_true', not_or, Bool.not_eq_false] at hallowed
    refine Work.Fits.insertOperatorRow exited ?_ ?_ changed
    · rw [keeps.version, frame.cursor]
      exact hallowed.2
    · rw [keeps.version]
      unfold Work.rowCount at *
      rw [frame.rows]
      omega

/-- R91: the deleted tags after a delete that R89 lets pass. -/
theorem addDeletedTag_spec {tags : List Nat} {tag : Option Nat} (hlen : tags.length ≤ 99) (honce : tags.Nodup)
    (h : deletedTagBlocked tags tag = false) :
    (addDeletedTag tags tag).length ≤ 99 ∧ (addDeletedTag tags tag).Nodup := by
  cases tag with
  | none => exact ⟨hlen, honce⟩
  | some t =>
    unfold addDeletedTag
    dsimp only
    split
    · exact ⟨hlen, honce⟩
    · rename_i hmem
      have room : tags.length < 99 := by
        simp only [deletedTagBlocked, Bool.not_eq_true _ ▸ hmem, Bool.not_false, Bool.true_and,
          decide_eq_false_iff_not, Nat.not_le] at h
        exact h
      refine ⟨by simp only [List.length_append, List.length_singleton]; omega, List.nodup_append.mpr
        ⟨honce, List.nodup_singleton t, fun a ha b hb => ?_⟩⟩
      rintro rfl
      simp only [List.mem_singleton] at hb
      subst hb
      simp [ha] at hmem

/-- R90: what a delete leaves of the form before every SUM is computed. -/
theorem Work.deleteOperatorRow_eq (w : Work) (p : Nat) (x : RowRec) :
    ∃ y : Work, w.deleteOperatorRow p x = y.computeAllSums.dirty .band ∧ y.v = w.v ∧ y.c = { w.c with
      deletedTags := addDeletedTag w.c.deletedTags x.tag
      rows := w.c.rows.take (p - 1) ++ w.c.rows.drop p
      first := clampFirst w.v.group (w.c.rows.take (p - 1) ++ w.c.rows.drop p).length w.c.first
      editing := w.c.editing && !(instAt w.v w.c w.c.cursor).isSome } := by
  unfold Work.deleteOperatorRow
  dsimp only
  cases (instAt w.v w.c w.c.cursor).isSome
  · exact ⟨_, rfl, rfl, by simp [Work.removeRowAt, Work.returnRow, Work.rowCount]⟩
  · exact ⟨_, rfl, rfl, by simp [Work.removeRowAt, Work.returnRow, Work.rowCount, Work.setEditing]⟩

theorem Work.Fits.deleteOperatorRow (hw : w.Fits) (p : Nat) {x : RowRec}
    (h : deletedTagBlocked w.c.deletedTags x.tag = false) : (w.deleteOperatorRow p x).Fits := by
  obtain ⟨hlen, honce⟩ := addDeletedTag_spec hw.form.deleted hw.form.deletedOnce h
  obtain ⟨y, hy, hv, hc⟩ := w.deleteOperatorRow_eq p x
  have deleted : y.Fits := by
    refine ⟨hv ▸ hw.version, ?_⟩
    rw [hv, hc]
    exact ((hw.form.withDeleted hlen honce).withFewerRows (removeRow_sublist w.c.rows p) w.c.first).withFlags _ _ _
  have summed := (Work.Computed.computeAllSums y).fits deleted
  rw [hy]
  exact summed.of_form (Work.dirty_keeps _ .band) summed.form

theorem Work.Fits.rowDeleteKey (hw : w.Fits) : w.rowDeleteKey.Fits := by
  unfold Work.rowDeleteKey
  split
  · exact hw.operatorError _
  split
  · exact hw.operatorError _
  split
  · exact hw.operatorError _
  split
  · exact hw.operatorError _
  · rename_i h
    exact hw.deleteOperatorRow _ (Bool.eq_false_of_not_eq_true h)

/-! ### Attention keys (R133, R134) -/

theorem Work.Fits.showRow (hw : w.Fits) (r : InstRef) : (w.showRow r).Fits := by
  unfold Work.showRow
  split
  · exact hw
  split
  · exact hw
  · exact hw.setFirst (clampFirst_range _ _ _)

/-- R134: after its row was brought into the window, the start of an instance is on the screen. -/
theorem Work.Fits.shownStart (hw : w.Fits) {r : InstRef} (hr : ∀ p j, r = .row p j → 1 ≤ p ∧ p ≤ w.c.rows.length) :
    OnScreen (fieldStart (w.showRow r).v (w.showRow r).c r) := by
  refine fieldStart_onScreen (hw.showRow r).version (hw.showRow r).form.cursor fun p j e hj => ?_
  subst e
  obtain ⟨hlo, hhi⟩ := hr p j rfl
  unfold Work.showRow at hj ⊢
  dsimp only at hj ⊢
  split at hj
  · rename_i hin
    rw [if_pos hin]
    simpa only [Context.inWindow, Bool.and_eq_true, decide_eq_true_eq] using hin
  · rename_i hin
    rw [if_neg hin]
    simp only [Work.setFirst_v, Work.setFirst_c] at hj ⊢
    exact clampFirst_shows hlo hhi (hw.version.visible_pos (List.getElem_mem hj))

theorem Work.Fits.reportKey (hw : w.Fits) (k : Byte) : (w.reportKey k).Fits := by
  have exited := hw.exitField w.negatesSigned_false
  unfold Work.reportKey
  split
  · rename_i h
    rwa [h] at exited
  · rename_i w' changed h
    replace exited : w'.Fits := by rwa [h] at exited
    dsimp only
    have tallied := (Work.Computed.tally w' changed).fits exited
    split
    · rename_i r hr
      have start := tallied.shownStart (r := r) fun p j e => by
        subst e
        rcases mem_allRefs.mp (List.mem_of_find?_eq_some hr) with ⟨i, -, e⟩ | ⟨k, j, hk, -, e⟩ <;> cases e
        omega
      exact ((tallied.showRow r).moveCursor start).operatorError _
    · exact tallied.latch k

/-! ### Applying a keystroke (R49) -/

theorem Work.Fits.applyDecoded (hw : w.Fits) (key : Key) : (w.applyDecoded key).Fits := by
  have cursor := hw.form.cursor
  cases key with
  | data ch => exact hw.dataKey ch
  | attention code =>
    unfold Work.applyDecoded
    dsimp only
    split
    · exact hw.latch code
    · exact hw.reportKey code
  | tab => exact hw.moveAsTab w.negatesSigned_false []
  | backtab => exact hw.exitTo true hw.backtabDecision.1 hw.backtabDecision.2
  | home => exact hw.exitTo true hw.keepsFirst ((homePos_target _ _).onScreen hw.version)
  | newline => exact hw.exitTo true hw.newlineDecision.1 hw.newlineDecision.2
  | up => exact hw.arrow cursor.up
  | down => exact hw.arrow cursor.down
  | left => exact hw.arrow cursor.pred
  | right => exact hw.arrow cursor.succ
  | rollUp => exact hw.rollTo _
  | rollDown => exact hw.rollTo _
  | rowInsert => exact hw.rowInsertKey
  | rowDelete => exact hw.rowDeleteKey
  | delete => exact hw.deleteKey
  | eraseEof => exact hw.eraseEofKey
  | eraseInput =>
    have applied : w.applyDecoded .eraseInput = w.eraseInputKey := rfl
    rw [applied]
    exact hw.eraseInputKey
  | fieldExit => exact hw.fieldExitKey
  | fieldMinus => exact hw.fieldMinusKey
  | dup => exact hw.dupKey
  | insert => exact hw.setInsertMode _
  | reset => exact hw.setInsertMode _

/-- A keystroke keeps the form in its shape. -/
theorem Work.Fits.applyKey (hw : w.Fits) (k : Byte) : (w.applyKey k).Fits := by
  unfold Work.applyKey
  split
  · exact hw
  · exact (hw.setAdjusted false).applyDecoded _

end

end Sys2Proof.Machine

/-! PROOFS. The entries of a FILL and a COMPOSE keep and build forms in their shape, loads install sound versions, and so
every step keeps the law of the forms (O57). -/

namespace Sys2Proof.Machine

/-! ### Host values (R40, R116) -/

section
variable {defs : List FieldDef}

theorem applyValue_fits (hdefs : ∀ d ∈ defs, GoodDef d) {insts out : List FieldInst} (h : InstsFit defs insts)
    {x : ValueEntry} (hx : applyValue defs insts x = .ok out) : InstsFit defs out := by
  unfold applyValue at hx
  split at hx
  · cases hx
  split at hx
  · cases hx
  rename_i d hd
  split at hx
  · cases hx
  split at hx
  · cases hx
  · rename_i t ht
    cases hx
    refine h.modify fun e y he _ => ?_
    cases hd.symm.trans he
    exact setByHost_fits (hdefs d (List.mem_of_getElem? hd)) ht y

theorem applyValues_fits (hdefs : ∀ d ∈ defs, GoodDef d) (l : List ValueEntry) {insts out : List FieldInst}
    (h : InstsFit defs insts) (hx : applyValues defs insts l = .ok out) : InstsFit defs out := by
  induction l generalizing insts with
  | nil => cases hx; exact h
  | cons x rest ih =>
    unfold applyValues at hx
    split at hx
    · cases hx
    · rename_i he
      exact ih (applyValue_fits hdefs h he) hx

theorem applyFixed_fits (hdefs : ∀ d ∈ defs, GoodDef d) (l : List ValueEntry) {insts out : List FieldInst} {k : Nat}
    (h : InstsFit defs insts) (hx : applyFixed defs k insts l = .ok out) : InstsFit defs out := by
  induction l generalizing insts k with
  | nil => cases hx; exact h
  | cons x rest ih =>
    unfold applyFixed at hx
    split at hx
    · cases hx
    · rename_i he
      exact ih (applyValue_fits hdefs h he) hx

/-- R40: a tag that no row repeats is no row's tag. -/
theorem tagRepeats_eq_false {tag : Nat} {rows : List RowRec} (h : tagRepeats tag rows = false) {t : Nat}
    (ht : tagOf tag = some t) : ∀ r ∈ rows, r.tag ≠ some t := by
  unfold tagOf at ht
  split at ht
  · cases ht
  rename_i h0
  cases ht
  intro r hr e
  have : tagRepeats tag rows = true := by
    simp only [tagRepeats, Bool.and_eq_true, bne_iff_ne, ne_eq, h0, not_false_iff, true_and, List.any_eq_true,
      beq_iff_eq]
    exact ⟨r, hr, e⟩
  rw [h] at this
  cases this

/-- Rows that fit their definitions, no tag twice. -/
structure RowsFit (defs : List FieldDef) (rows : List RowRec) : Prop where
  insts : ∀ r ∈ rows, InstsFit defs r.insts
  tags : (rows.filterMap RowRec.tag).Nodup

theorem composeRow_fits (hdefs : ∀ d ∈ defs, GoodDef d) {built : List RowRec} (h : RowsFit defs built) {x : RowEntry}
    {r : RowRec} (hr : composeRow defs built x = .ok r) : RowsFit defs (built ++ [r]) := by
  unfold composeRow at hr
  split at hr
  · cases hr
  · cases hr
  · cases hr
  · rename_i insts hrep hval
    cases hr
    refine ⟨fun r hr => ?_, ?_⟩
    · rcases List.mem_append.mp hr with hr | hr
      · exact h.insts r hr
      · rw [List.mem_singleton.mp hr]
        exact applyValues_fits hdefs _ (initial_fits hdefs) hval
    · rw [List.filterMap_append]
      refine List.nodup_append.mpr ⟨h.tags, ?_, fun a ha b hb => ?_⟩
      · cases tagOf x.tag <;> simp
      · obtain ⟨y, hy, hya⟩ := List.mem_filterMap.mp ha
        obtain ⟨z, hz, hzb⟩ := List.mem_filterMap.mp hb
        rw [List.mem_singleton.mp hz] at hzb
        rintro rfl
        exact tagRepeats_eq_false hrep hzb y hy hya

theorem composeRows_fits (hdefs : ∀ d ∈ defs, GoodDef d) (l : List RowEntry) {k : Nat} {built out : List RowRec}
    (h : RowsFit defs built) (hx : composeRows defs k built l = .ok out) :
    RowsFit defs out ∧ out.length = built.length + l.length := by
  induction l generalizing k built with
  | nil => cases hx; exact ⟨h, rfl⟩
  | cons x rest ih =>
    unfold composeRows at hx
    split at hx
    · cases hx
    · rename_i r hr
      obtain ⟨hout, hlen⟩ := ih (composeRow_fits hdefs h hr) hx
      exact ⟨hout, by rw [hlen]; simp only [List.length_append, List.length_cons, List.length_nil]; omega⟩

end

/-! ### COMPOSE (R40, R41) -/

section
variable {v : TemplateVersion}

/-- R40: the form of a COMPOSE before step 5. -/
theorem buildContext_shaped (hv : SoundVersion v) {e : EntryId} {r : ComposeRec} {c : Context}
    (hcount : r.rows.length ≤ v.group.maxRows) (h : buildContext v e r = .ok c) : Shaped v c := by
  have fixedGood : ∀ d ∈ v.fixed, GoodDef d := fun d hd => hv.good (List.mem_append_left _ hd)
  have rowGood : ∀ d ∈ v.rowDefs, GoodDef d := fun d hd => hv.good (List.mem_append_right _ hd)
  unfold buildContext at h
  split at h
  · cases h
  rename_i fixed hfixed
  split at h
  · cases h
  rename_i rows hrows
  cases h
  obtain ⟨rowsFit, hlen⟩ := composeRows_fits rowGood r.rows (built := []) ⟨by simp, by simp⟩ hrows
  simp only [List.length_nil, Nat.zero_add] at hlen
  exact ⟨applyFixed_fits fixedGood r.fixed (initial_fits fixedGood) hfixed, rowsFit.insts, by dsimp only; omega,
    hv.rowLimit, ⟨Nat.le_refl 1, Nat.le_max_left ..⟩, onScreen_origin, by simp, by simp, rowsFit.tags⟩

/-- R41, R115: a row that a reference names is in the row list. -/
theorem resolveRef_row {c : Context} {ref : FieldRef} {r : InstRef} {d : FieldDef} (h : resolveRef v c ref = .ok (r, d)) :
    v.defOf r = some d ∧ ∀ p j, r = .row p j → 1 ≤ p ∧ p ≤ c.rows.length := by
  unfold resolveRef at h
  split at h
  · split at h
    · rename_i hd
      split at h <;> cases h
      exact ⟨hd, fun _ _ e => nomatch e⟩
    · cases h
  split at h
  · split at h
    · rename_i hd
      split at h
      · cases h
      split at h <;> cases h
      rename_i hlen
      refine ⟨hd, fun p j e => ?_⟩
      cases e
      exact ⟨by omega, hlen⟩
    · cases h
  · cases h

/-- R41: step 5 places the window in its range and the cursor on the screen. -/
theorem placeCursor_shaped (hv : SoundVersion v) {c : Context} (h : Shaped v c) (ref : FieldRef) :
    Shaped v (placeCursor v c ref) := by
  have top : InWindowRange v c 1 := ⟨Nat.le_refl 1, Nat.le_max_left ..⟩
  unfold placeCursor
  split
  · rename_i r d hr
    obtain ⟨-, hrow⟩ := resolveRef_row hr
    extract_lets first placed
    have place : InWindowRange v c first ∧
        ∀ p j, r = .row p j → j < v.rowDefs.length → first ≤ p ∧ p < first + v.group.visible := by
      cases r with
      | fixed i => exact ⟨top, fun _ _ e => nomatch e⟩
      | row p j =>
        obtain ⟨hlo, hhi⟩ := hrow p j rfl
        by_cases hp : p ≤ v.group.visible
        · have : first = 1 := if_pos hp
          refine ⟨this ▸ top, fun q k e _ => ?_⟩
          cases e
          omega
        · have : first = clampFirst v.group c.rows.length p := if_neg hp
          refine ⟨this ▸ clampFirst_range _ _ _, fun q k e hk => ?_⟩
          cases e
          rw [this]
          exact clampFirst_shows hlo hhi (hv.visible_pos (List.getElem_mem hk))
    have hp : Shaped v placed := h.withFirst place.1
    exact hp.withCursor (fieldStart_onScreen hv hp.cursor place.2)
  · exact (h.withFirst top).withCursor ((homePos_target _ _).onScreen hv)

end

/-! ### FILL (R114 to R124) -/

section
variable {w w' : Work}

theorem Work.Fits.abandonEdit (hw : w.Fits) (r : InstRef) : (w.abandonEdit r).Fits := by
  have closed := hw.setEditing false
  unfold Work.abandonEdit
  extract_lets left
  have hl : left.Fits := closed
  clear_value left
  split
  · rename_i d x hd hx
    split
    · rename_i hnum
      refine hl.putInst fun e _ he _ => ?_
      obtain ⟨d', hd', fits⟩ := hl.form.inst hx
      cases hd.symm.trans he
      cases hd.symm.trans hd'
      refine fitsField_number (hl.version.good_of_defOf hd) (fits.2.resolve_left ?_) (isNumeric_kind hnum) rfl rfl
      simp [isNumeric_kind hnum]
    · exact hl
  · exact hl

theorem Work.Fits.leaveInst (hw : w.Fits) (b : Option InstRef) : (w.leaveInst b).Fits := by
  unfold Work.leaveInst
  split
  · exact hw
  split
  · exact hw.abandonEdit _
  · exact hw

theorem Work.Fits.dirty (hw : w.Fits) (d : Dirty) : (w.dirty d).Fits := ⟨hw.version, hw.form⟩

theorem Work.Fits.setInst (hw : w.Fits) {r : InstRef} {d : FieldDef} (hd : w.v.defOf r = some d) {x : FieldInst}
    {t : Text} {y : Text × Option Int} (hy : hostText d t = some y) : (w.setInst r x y).Fits := by
  unfold Work.setInst
  extract_lets cursorIn put left
  have hp : put.Fits := hw.putInst fun e _ he _ => by
    cases hd.symm.trans he
    exact setByHost_fits (hw.version.good_of_defOf hd) hy x
  have hl : left.Fits := by
    simp only [left]
    split
    · exact hp.setEditing false
    · exact hp
  split
  · exact hl
  · exact (Work.Computed.tally _ _).fits hl

theorem Work.Fits.fillSet (hw : w.Fits) {ref : FieldRef} {t : Text} (h : w.fillSet ref t = .ok w') : w'.Fits := by
  unfold Work.fillSet at h
  split at h
  · cases h
  rename_i r d hr
  split at h
  · cases h
  split at h
  · cases h
  · rename_i ht _
    cases h
    exact hw.setInst (resolveRef_row hr).1 ht
  · cases h

theorem Work.Fits.dirtyBandAt (hw : w.Fits) (p : Nat) : (w.dirtyBandAt p).Fits :=
  hw.of_form (Work.dirtyBandAt_keeps _ _) (by simpa using hw.form)

theorem Work.Fits.fillInsert (hw : w.Fits) {p : Nat} {x : RowEntry} (h : w.fillInsert p x = .ok w') : w'.Fits := by
  have rowGood : ∀ d ∈ w.v.rowDefs, GoodDef d := fun d hd => hw.version.good (List.mem_append_right _ hd)
  unfold Work.fillInsert at h
  split at h
  · cases h
  split at h
  · cases h
  rename_i hroom
  split at h
  · cases h
  rename_i htag
  split at h
  · cases h
  rename_i insts hvalues
  split at h
  · cases h
  extract_lets before inserted summed at h
  cases h
  simp only [Bool.or_eq_true, decide_eq_true_eq, not_or, Bool.not_eq_true] at htag
  have hi : inserted.Fits := ⟨hw.version, hw.form.insertRow p (applyValues_fits rowGood _ (initial_fits rowGood) hvalues)
    (Nat.lt_of_not_le hroom) (fun t ht => tagRepeats_eq_false htag.2 ht)⟩
  have hs : summed.Fits :=
    ((Work.Computed.computeRow (inserted.dirtyBandAt p) p).trans (.computeAllSums _)).fits (hi.dirtyBandAt p)
  exact hs.leaveInst before

/-- R120: what DELETE ROW leaves of the form before every SUM is computed. -/
theorem Work.Fits.removeRow (hw : w.Fits) (p : Nat) : Work.Fits { w with
    c := { w.c with
      rows := w.c.rows.take (p - 1) ++ w.c.rows.drop p
      first := clampFirst w.v.group (w.c.rows.take (p - 1) ++ w.c.rows.drop p).length w.c.first }
    freeRows := w.freeRows + 1 } :=
  ⟨hw.version, hw.form.withFewerRows (removeRow_sublist w.c.rows p) w.c.first⟩

theorem Work.Fits.fillDelete (hw : w.Fits) {p : Nat} (h : w.fillDelete p = .ok w') : w'.Fits := by
  unfold Work.fillDelete at h
  split at h
  · cases h
  extract_lets before shown removed _ clamped marked summed at h
  have hc : clamped.Fits := hw.removeRow p
  have hm : marked.Fits := by
    simp only [marked]
    split
    · exact hc.dirty _
    · exact hc
  have hs : summed.Fits := (Work.Computed.computeAllSums marked).fits hm
  clear_value before summed
  split at h
  · cases h
    exact hs
  split at h
  · cases h
    exact hs.setEditing false
  · cases h
    exact hs.leaveInst _

/-- R121: another tag for one row, which no other row has. -/
theorem Shaped.withTag {v : TemplateVersion} {c : Context} (h : Shaped v c) {k tag : Nat}
    (htag : tagRepeats tag (c.rows.eraseIdx k) = false) :
    Shaped v { c with rows := modifyNth c.rows k (fun x => { x with tag := tagOf tag }) } := by
  have insts : ∀ r ∈ modifyNth c.rows k (fun x => { x with tag := tagOf tag }), InstsFit v.rowDefs r.insts := by
    intro r hr
    obtain ⟨i, hi⟩ := List.mem_iff_getElem?.mp hr
    rw [modifyNth, List.getElem?_modify] at hi
    obtain ⟨y, hy, rfl⟩ := Option.map_eq_some_iff.mp hi
    have fits := h.rows y (List.mem_of_getElem? hy)
    split <;> exact fits
  have hlen : (modifyNth c.rows k (fun x => { x with tag := tagOf tag })).length = c.rows.length := by
    simp [modifyNth]
  refine ⟨h.fixed, insts, by rw [hlen]; exact h.count, h.rowLimit, by simpa only [hlen] using h.window, h.cursor,
    h.deleted, h.deletedOnce, ?_⟩
  by_cases hk : k < c.rows.length
  · have perm : (modifyNth c.rows k (fun x => { x with tag := tagOf tag })).Perm
        ({ c.rows[k] with tag := tagOf tag } :: c.rows.eraseIdx k) := by
      rw [modifyNth, List.modify_eq_take_cons_drop hk, List.eraseIdx_eq_take_drop_succ]
      exact List.perm_middle
    have rest : ((c.rows.eraseIdx k).filterMap RowRec.tag).Nodup :=
      h.tagsOnce.sublist ((List.eraseIdx_sublist c.rows k).filterMap _)
    refine (perm.filterMap RowRec.tag).nodup_iff.mpr ?_
    cases ht : tagOf tag with
    | none => simpa [List.filterMap_cons] using rest
    | some t =>
      rw [List.filterMap_cons]
      refine List.nodup_cons.mpr ⟨fun hmem => ?_, rest⟩
      obtain ⟨r, hr, hrt⟩ := List.mem_filterMap.mp hmem
      exact tagRepeats_eq_false htag ht r hr hrt
  · rw [modifyNth, List.modify_eq_self (Nat.le_of_not_lt hk)]
    exact h.tagsOnce

theorem Work.Fits.fillTag (hw : w.Fits) {p tag : Nat} (h : w.fillTag p tag = .ok w') : w'.Fits := by
  unfold Work.fillTag at h
  split at h
  · cases h
  split at h
  · cases h
  rename_i htag
  cases h
  exact ⟨hw.version, hw.form.withTag (Bool.eq_false_of_not_eq_true htag)⟩

theorem Work.Fits.fillCursor (hw : w.Fits) {ref : FieldRef} (h : w.fillCursor ref = .ok w') : w'.Fits := by
  unfold Work.fillCursor at h
  split at h
  · cases h
  · rename_i r d hr
    cases h
    exact ((hw.showRow r).moveCursor (hw.shownStart (resolveRef_row hr).2)).leaveInst _

/-- R114: an entry of a FILL keeps the form in its shape. -/
theorem Work.Fits.fillEntry (hw : w.Fits) {e : FillEntry} (h : w.fillEntry e = .ok w') : w'.Fits := by
  cases e with
  | set ref t => exact hw.fillSet h
  | appendRow row => exact hw.fillInsert h
  | insertRow p row => exact hw.fillInsert h
  | deleteRow p => exact hw.fillDelete h
  | tagRow p tag => exact hw.fillTag h
  | cursor ref => exact hw.fillCursor h

end

/-- R124, R128: clear modified flags and no deleted tags leave the shape. -/
theorem clearModifiedIn_shaped {v : TemplateVersion} {c : Context} (h : Shaped v c) : Shaped v (clearModifiedIn c) := by
  have cleared : ∀ {defs insts}, InstsFit defs insts →
      InstsFit defs (insts.map fun x => { x with modified := false }) := fun h =>
    List.forall₂_map_right_iff.mpr h
  have rows : Shaped v { c with rows := (clearModifiedIn c).rows } := by
    refine h.withRows (by simp [clearModifiedIn]) fun r hr => ?_
    obtain ⟨y, hy, rfl⟩ := List.mem_map.mp hr
    exact cleared (h.rows y hy)
  exact ⟨cleared h.fixed, rows.rows, rows.count, h.rowLimit, rows.window, h.cursor, by simp [clearModifiedIn],
    by simp [clearModifiedIn], rows.tagsOnce⟩

/-! ### Staged loads (R3, R13, R14) -/

theorem heldGroup_visible (g : Group) : (heldGroup g).visible = g.visible := by
  unfold heldGroup
  split
  · rename_i h; exact h.symm
  · rfl

theorem heldGroup_idem (g : Group) : heldGroup (heldGroup g) = heldGroup g := by
  by_cases h : g.visible = 0
  · simp [heldGroup, h]
  · simp [heldGroup, h]

theorem groupOk_heldGroup {g : Group} {n : Nat} : groupOk (heldGroup g) n = groupOk g n := by
  by_cases h : g.visible = 0
  · simp [heldGroup, groupOk, h]
  · simp [heldGroup, h]

theorem stagingLaw_iff {x : Staging} : stagingLaw x = true ↔
    loadBeginOk x.declared = true ∧ heldGroup x.declared.group = x.declared.group
      ∧ x.fixed.length ≤ x.declared.fixedCount ∧ x.rowDefs.length ≤ x.declared.rowCount
      ∧ x.literals.length ≤ x.declared.literalCount
      ∧ (∀ d ∈ x.fixed, d.rowRegion = false) ∧ ∀ d ∈ x.rowDefs, d.rowRegion = true := by
  simp only [stagingLaw, Bool.and_eq_true, decide_eq_true_eq, beq_iff_eq, List.all_eq_true, Bool.not_eq_true', and_assoc]

theorem stagingLaw_begun {p : LoadBegin} {e : EntryId} (h : loadBeginOk p = true) : stagingLaw
    { entry := e, declared := { p with group := heldGroup p.group }, fixed := [], rowDefs := [], literals := [] }
      = true := by
  simp only [stagingLaw_iff, loadBeginOk, groupOk_heldGroup, heldGroup_idem] at *
  simp [h]

theorem stagingLaw_added {x y : Staging} {e : LoadEntry} (h : stagingLaw x = true) (hy : x.add e = some y) :
    stagingLaw y = true := by
  obtain ⟨hok, hgroup, hfixed, hrows, hruns, hfixedRegion, hrowRegion⟩ := stagingLaw_iff.mp h
  have region : ∀ {l : List FieldDef} {b : Bool} {d : FieldDef}, (∀ d ∈ l, d.rowRegion = b) → d.rowRegion = b →
      ∀ e ∈ l ++ [d], e.rowRegion = b := fun hl hd e he => by
    rcases List.mem_append.mp he with he | he
    · exact hl e he
    · rwa [List.mem_singleton.mp he]
  rw [stagingLaw_iff]
  unfold Staging.add at hy
  split at hy
  · rename_i d
    split at hy
    · rename_i hd
      split at hy <;> cases hy
      exact ⟨hok, hgroup, hfixed, by simpa, hruns, hfixedRegion, region hrowRegion hd⟩
    · rename_i hd
      split at hy <;> cases hy
      exact ⟨hok, hgroup, by simpa, hrows, hruns, region hfixedRegion (Bool.eq_false_of_not_eq_true hd), hrowRegion⟩
  · split at hy <;> cases hy
    rename_i hroom
    simp only [Bool.and_eq_true, decide_eq_true_eq] at hroom
    exact ⟨hok, hgroup, hfixed, hrows, by simpa using hroom.1, hfixedRegion, hrowRegion⟩

/-- R15, R16: the version that a load without an offending entry installs is sound. -/
theorem soundVersion_installed {x : Staging} {n : Nat} (h : stagingLaw x = true) (hx : x.offending = none) :
    SoundVersion (x.toVersion n) := by
  obtain ⟨hok, hgroup, -, hrows, -, hfixedRegion, hrowRegion⟩ := stagingLaw_iff.mp h
  obtain ⟨-, sound⟩ := Staging.offending_eq_none.mp hx
  obtain ⟨-, -, -, -, -, bandless, band, -, -⟩ := loadBeginOk_iff.mp hok
  have held : x.declared.group.visible = 0 → x.declared.group.maxRows = 0 := fun h0 => by
    rw [← hgroup, heldGroup, if_pos h0]
  refine ⟨fun hv => ?_, fun hv => ⟨?_, held hv⟩, ?_, hfixedRegion, hrowRegion, sound⟩
  · obtain ⟨-, hfirst, hlast, -⟩ := band hv
    exact ⟨hfirst, hlast⟩
  · exact List.eq_nil_of_length_eq_zero (Nat.le_zero.mp (bandless hv ▸ hrows))
  · change x.declared.group.maxRows ≤ 99
    by_cases hv : x.declared.group.visible = 0
    · rw [held hv]
      omega
    · obtain ⟨-, -, -, -, hmax, -⟩ := band hv
      exact hmax

/-! ### The law of the forms -/

/-- The rule of the forms: what a staged load keeps, sound versions, and forms in their shape. -/
def FormRule.shapes : FormRule := { staged := fun x => stagingLaw x = true, version := SoundVersion, form := Shaped }

theorem FormRule.shapes_closed : FormRule.shapes.Closed where
  begun := stagingLaw_begun
  added := stagingLaw_added
  installed := soundVersion_installed
  versionCounts _ _ h := ⟨h.band, h.bandless, h.rowLimit, h.fixedRegion, h.rowRegion, h.entries⟩
  formCounts _ _ h :=
    ⟨h.fixed, h.rows, h.count, h.rowLimit, h.window, h.cursor, h.deleted, h.deletedOnce, h.tagsOnce⟩
  composed {w _ _} hv hcount hbuilt := by
    have built : w.Fits := ⟨hv, buildContext_shaped hv hcount hbuilt⟩
    have tallied := ((Work.Computed.tallyAll w).fits built).form
    rw [(Work.tallyAll_keeps w).version] at tallied
    exact placeCursor_shaped hv tallied _
  adjusted _ h := h.withFlags _ _ _
  modifiedCleared := clearModifiedIn_shaped
  key {w} k hv hf := (Work.applyKey_keeps w k).version ▸ (Work.Fits.applyKey ⟨hv, hf⟩ k).form
  entry {w _ _} hv hf h := (Work.fillEntry_keeps h).version ▸ (Work.Fits.fillEntry ⟨hv, hf⟩ h).form

theorem FormRule.shapes_holds {s : State} : FormRule.shapes.Holds s ↔ FormLaw s := by
  constructor
  · intro h
    exact ⟨templatesSound_iff.mpr ⟨h.staged, h.versions⟩, h.store, fun i c hc => contextLaw_iff.mpr (h.forms i c hc)⟩
  · rintro ⟨sound, store, forms⟩
    obtain ⟨staged, versions⟩ := templatesSound_iff.mp sound
    exact ⟨store, staged, versions, fun i c hc => contextLaw_iff.mp (forms i c hc)⟩

/-- Settles O57: the walk over the commands, for the rule of the forms. -/
theorem stepKeepsForms : Obligations.StepKeepsForms := by
  intro s t h ht
  exact FormRule.shapes_holds.mp ((FormRule.shapes_holds.mpr h).step FormRule.shapes_closed ht)

end Sys2Proof.Machine

/-! PROOFS. A station that drops its form (R20, R28, R44): what is left of the station, the pool, the version and the
events; a record taken at once (R35); and a RELEASE (O40). -/

namespace Sys2Proof.Machine

variable {s : State} {i : StationId} {g : GenId}

/-! ### A form dropped (R20, R21, R28) -/

/-- TEMPLATE FREED raises no other event (R191). -/
theorem RawEvents.raise_templateFreed_has (r : RawEvents) {e : Event} (he : e ≠ .templateFreed) :
    (r.raise .templateFreed).has e = r.has e := by
  cases e <;> simp_all [RawEvents.raise, RawEvents.has, bitMask]

/-- R191: an event raised leaves the members of the raw set in it. -/
theorem RawEvents.raise_has (r : RawEvents) (f : Event) {e : Event} (he : r.has e = true) :
    (r.raise f).has e = true := by
  cases f <;> cases e <;> simp_all [RawEvents.raise, RawEvents.has]

/-- R20, R21: a use less changes the table, and with TEMPLATE FREED the raw set, the event slot and the waiting
records. -/
theorem State.lowerUse_frame (s : State) (e : EntryId) : s.lowerUse e = { s with
    table := (s.lowerUse e).table, raw := (s.lowerUse e).raw, event := (s.lowerUse e).event
    waiting := (s.lowerUse e).waiting } := by
  cases h : s.table[e] with
  | none => rw [State.lowerUse_of_none h]
  | some v =>
    rw [State.lowerUse_eq h]
    split
    · conv_lhs => rw [State.raise_eq]
      simp
    · rfl

theorem State.lowerUse_waiting_filter (s : State) (e : EntryId) :
    (s.lowerUse e).waiting.filter (fun m => m != .event) = s.waiting.filter (fun m => m != .event) := by
  cases h : s.table[e] with
  | none => rw [State.lowerUse_of_none h]
  | some v =>
    rw [State.lowerUse_eq h]
    split
    · exact State.raise_waiting_filter _ _
    · rfl

/-- R191: a use less raises TEMPLATE FREED at most. -/
theorem State.lowerUse_raw (s : State) (e : EntryId) :
    (s.lowerUse e).raw = s.raw ∨ (s.lowerUse e).raw = s.raw.raise .templateFreed := by
  cases h : s.table[e] with
  | none => rw [State.lowerUse_of_none h]; exact .inl rfl
  | some v =>
    rw [State.lowerUse_eq h]
    split
    · exact .inr (by simp)
    · exact .inl rfl

/-- The station as the drop of a form leaves it. -/
def Station.formless (st : Station) : Station :=
  { st with ctx := none, paint := { st.paint with dirty := [], band := none } }

theorem State.dropContext_some {c : Context} (hc : (s.station i).ctx = some c) :
    s.dropContext i = State.lowerUse
      { s.setStation i (s.station i).formless with freeRows := s.freeRows + c.rows.length } c.entry := by
  unfold State.dropContext
  simp only [hc]
  rfl

theorem State.dropContext_none (hc : (s.station i).ctx = none) : s.dropContext i = s := by
  unfold State.dropContext
  simp only [hc]

/-- R44: what the drop of a form changes: its station, the pool, the table, and the events. -/
theorem State.dropContext_frame (s : State) (i : StationId) : s.dropContext i = { s with
    stations := s.stations.set i (if (s.station i).ctx.isSome then (s.station i).formless else s.station i)
    freeRows := s.freeRows + rowsHeld (s.station i), table := (s.dropContext i).table, raw := (s.dropContext i).raw
    event := (s.dropContext i).event, waiting := (s.dropContext i).waiting } := by
  cases hc : (s.station i).ctx with
  | none =>
    have rows : rowsHeld (s.station i) = 0 := by simp only [rowsHeld, hc]
    rw [State.dropContext_none hc, rows]
    simp [State.station]
  | some c =>
    rw [State.dropContext_some hc]
    conv_lhs => rw [State.lowerUse_frame]
    simp [rowsHeld, hc, State.setStation]

theorem State.dropContext_waiting_filter (s : State) (i : StationId) :
    (s.dropContext i).waiting.filter (fun m => m != .event) = s.waiting.filter (fun m => m != .event) := by
  cases hc : (s.station i).ctx with
  | none => rw [State.dropContext_none hc]
  | some c => rw [State.dropContext_some hc]; exact State.lowerUse_waiting_filter _ _

theorem State.dropContext_raw (s : State) (i : StationId) :
    (s.dropContext i).raw = s.raw ∨ (s.dropContext i).raw = s.raw.raise .templateFreed := by
  cases hc : (s.station i).ctx with
  | none => rw [State.dropContext_none hc]; exact .inl rfl
  | some c => rw [State.dropContext_some hc]; exact State.lowerUse_raw _ _

/-- R20, R21: the drop of a form, told apart from how the model makes it. -/
theorem State.dropContext_formDropped (s : State) (i : StationId) : FormDropped s (s.dropContext i) i := by
  refine ⟨fun hc => ?_, fun c w hc hw hu => ?_⟩
  · rw [State.dropContext_none hc]
    exact ⟨rfl, rfl, rfl⟩
  · rw [State.dropContext_some hc, State.lowerUse_eq (v := w) (by simpa using hw)]
    constructor
    · intro hr hone
      rw [if_pos ⟨hr, by omega⟩]
      refine ⟨by simp, by simp, ?_⟩
      exact (State.raise_slot_congr .templateFreed (by rfl) (by rfl) (by rfl) (by rfl)).1
    · intro h
      rw [if_neg fun ⟨hr, hz⟩ => by rcases h with h | h; · simp [h] at hr
                                    · omega]
      exact ⟨by simp, by simp, by simp⟩

/-- A drop is told by the table, the raw set and the event slot; the receiver has no part in it. -/
theorem FormDropped.of_hunting {t u : State} (h : FormDropped s.hunting t i) (ht : u.table = t.table)
    (hr : u.raw = t.raw) (he : u.event = t.event) : FormDropped s u i := by
  simpa only [FormDropped, State.raise_hunting, State.hunting_table, State.hunting_raw, State.hunting_event,
    show s.hunting.station i = s.station i from rfl, ht, hr, he] using h

/-! ### A record taken at once (R35) -/

theorem State.modStation_modStation (s : State) (i : StationId) (f h : Station → Station) :
    (s.modStation i f).modStation i h = s.modStation i (fun st => h (f st)) := by
  simp only [State.modStation, State.station_setStation_self]
  simp [State.setStation]

/-- R35: the one record that waits is taken. -/
theorem State.takeWaiting_one {q : Queued} (hq : (s.station i).records = [q]) (hr : (s.station i).state ≠ .releasing)
    (hf : s.frozen i = false) :
    s.takeWaiting i = (s.modStation i (fun st => { st with records := [] })).takeRecord i q := by
  simp [State.takeWaiting, State.takeUpTo, hq, hf, hr]

/-- R35: a station that takes records, and at which none waits, takes the one that arrives. -/
theorem State.arriveStation_ready (h : Ready s i) (r : StationRecord) (g : GenId) :
    s.arriveStation i r g = s.takeRecord i ⟨g, r⟩ := by
  obtain ⟨hattached, hreleasing, hrecords, hfrozen⟩ := h
  have unqueued : s.modStation i (fun st => { st with records := [] }) = s := by
    rw [State.modStation_eq, ← hrecords]
    exact State.setStation_station s i
  have room : ¬Config.recordQueue ≤ (s.station i).records.length := by simp [hrecords, Config.recordQueue]
  unfold State.arriveStation
  rw [if_neg (by simpa using hattached), if_neg room]
  rw [State.takeWaiting_one (s := s.modStation i fun st => { st with records := st.records ++ [⟨g, r⟩] }) (q := ⟨g, r⟩)
    (by simp [State.modStation_eq, hrecords])
    (by simpa [State.modStation_eq] using hreleasing) hfrozen, State.modStation_modStation, unqueued]

theorem exec_release (h : Receiving s g) (hr : Ready s i) :
    exec (.release i) s = .next (s.hunting.takeRelease i g) := by
  have arrived : exec (.release i) s = .next (s.hunting.arriveStation i .release g) :=
    congrArg Host.Outcome.next (State.arrive_receiving h fun s g => s.arriveStation i .release g)
  rw [arrived, State.arriveStation_ready (s := s.hunting) hr]
  rfl

/-! ### RELEASE at a station with a form (R44, R45) -/

/-- R151: the paint state of a full repaint set without a context: the pending ALARM is kept. -/
def Paint.cleared (p : Paint) (m : Marker) : Paint :=
  { dirty := [], resume := some .clear, band := none, cursorPending := false, alarm := p.alarm, marker := m }

/-- R44: a station in RELEASING, its RELEASE in slot `g`. -/
def Station.releasing (st : Station) (g : GenId) : Station :=
  { st with
    state := .releasing, lock := .system, ctx := none, typeAhead := [], overrun := false, unlockAtEnd := false
    reportSlot := none, releaseSlot := some g, paint := st.paint.cleared .owed }

/-- R45: the station when RELEASING has ended. -/
def Station.released (st : Station) : Station :=
  { st with
    state := .blank, lock := .none, ctx := none, typeAhead := [], overrun := false, unlockAtEnd := false
    reportSlot := none, releaseSlot := none, paint := st.paint.cleared .none }

/-- R43: the general slots after a superseded COMPOSE has given its slot back. -/
def State.reportFreed (s : State) (i : StationId) : Vector GeneralSlot 24 :=
  (s.station i).reportSlot.elim s.general fun h => s.general.set h .free

theorem State.supersede_eq (s : State) (i : StationId) : s.supersede i = { s with
    stations := s.stations.set i { s.station i with reportSlot := none, unlockAtEnd := false }
    general := s.reportFreed i } := by
  unfold State.supersede State.reportFreed
  cases h : (s.station i).reportSlot with
  | some k => rfl
  | none => simp [State.modStation, State.setStation, h]

/-- R44: RELEASING begins. -/
def State.beginReleasing (s : State) (i : StationId) (g : GenId) : State :=
  { s.dropContext i with stations := s.stations.set i ((s.station i).releasing g), general := s.reportFreed i }

/-- R45: RELEASING ends at once, with the DONE of the RELEASE. -/
def State.released (s : State) (i : StationId) (g : GenId) : State :=
  { s.dropContext i with
    stations := s.stations.set i (s.station i).released
    general := (s.reportFreed i).set g (.occupied (stationNumber i) (.done 0x27))
    waiting := (s.dropContext i).waiting ++ [.general g] }

theorem State.setLock_eq (s : State) (i : StationId) (x : StationState) (l : Lock) : s.setLock i x l =
    s.setStation i ((s.station i).withIndicator fun st => { st with state := x, lock := l }) := rfl

/-- R159: where the indicator's text stays, no MESSAGE entry is added. -/
theorem Station.withIndicator_of_eq {st : Station} {f : Station → Station}
    (h : indicator (f st).state (f st).lock (f st).ctx = indicator st.state st.lock st.ctx) :
    st.withIndicator f = f st := by
  unfold Station.withIndicator
  dsimp only
  rw [if_pos h]

theorem State.endReleasing_begun (s : State) (i : StationId) (g : GenId) :
    (s.beginReleasing i g).endReleasing i = s.released i g := by
  have st : (s.beginReleasing i g).station i = (s.station i).releasing g := by
    simp [State.beginReleasing, State.station]
  have locked : ((s.station i).releasing g).withIndicator (fun st => { st with state := .blank, lock := .none })
      = { (s.station i).releasing g with state := .blank, lock := .none } := Station.withIndicator_of_eq rfl
  unfold State.endReleasing
  rw [State.setLock_eq, st, locked]
  simp only [State.modStation_eq, State.station_setStation_self]
  simp [State.setStation, State.beginReleasing, Station.releasing, State.place, State.released, Station.released,
    Paint.cleared]

/-- R44, R45: a RELEASE at a station with a form. -/
theorem State.takeRelease_some (hc : (s.station i).ctx.isSome = true) (g : GenId) :
    s.takeRelease i g = if s.endsAtOnce i then s.released i g else s.beginReleasing i g := by
  obtain ⟨c, hc'⟩ := Option.isSome_iff_exists.mp hc
  have frame := State.dropContext_frame s i
  rw [if_pos hc] at frame
  have stations : (s.dropContext i).stations = s.stations.set i (s.station i).formless := by rw [frame]
  have general : (s.dropContext i).general = s.general := by rw [frame]
  have begun : (((s.dropContext i).supersede i).modStation i (fun st =>
      { st with state := .releasing, lock := .system, typeAhead := [], overrun := false, releaseSlot := some g })).setFull
        i (fun _ => .owed) = s.beginReleasing i g := by
    simp only [State.supersede_eq, State.setFull, State.modStation_modStation]
    simp [State.modStation_eq, State.setStation, State.station, stations, State.beginReleasing, State.reportFreed, general]
    exact ⟨rfl, rfl⟩
  have once : (s.beginReleasing i g).endsAtOnce i = s.endsAtOnce i := by
    have loop : (s.dropContext i).loop = s.loop := (State.dropContext_only (i := i) s).loop
    simp [State.endsAtOnce, State.beginReleasing, State.station, loop, Station.releasing]
  unfold State.takeRelease
  simp only [hc']
  rw [begun, once]
  split
  · exact State.endReleasing_begun s i g
  · rfl

theorem State.reportFreed_getElem (s : State) (i : StationId) (h : GenId) :
    (s.reportFreed i)[h] = if some h = (s.station i).reportSlot then .free else s.general[h] := by
  unfold State.reportFreed
  cases hr : (s.station i).reportSlot with
  | none => simp
  | some k => simp only [Option.elim_some, getElem_set_fin, Option.some.injEq]

theorem State.endsAtOnce_iff : s.endsAtOnce i = true ↔
    s.loop.mode = .stopped ∨ ∀ l, (s.station i).link = some l → l.online = false := by
  unfold State.endsAtOnce
  cases (s.station i).link <;> simp

/-- What an act on a station leaves alone once its frame has arrived. -/
theorem OnlyStation.confined {t : State} (k : OnlyStation i s.hunting t)
    (hg : ∀ h, h ≠ g → some h ≠ (s.station i).reportSlot → t.general[h] = s.general[h]) : Confined s t i g :=
  ⟨k.pending, k.resetInput, k.holdInput, k.rx, k.tx, k.cuts, k.enable, k.staging, k.nextVersion, k.loop, k.stations,
    k.attention, hg⟩

/-! ### A station without a form is opened (R37, R44, R127) -/

theorem firstAttention_of_none {l : List Byte} (h : l.find? isAttentionKey = none) : firstAttention l = none := by
  induction l with
  | nil => rfl
  | cons k rest ih =>
    rw [List.find?_cons] at h
    unfold firstAttention
    split at h
    · cases h
    · rename_i hk
      rw [hk]
      exact ih h

theorem firstAttention_append {skipped rest : List Byte} {k : Byte} (h : skipped.find? isAttentionKey = none)
    (hk : isAttentionKey k = true) : firstAttention (skipped ++ k :: rest) = some (k, rest) := by
  induction skipped with
  | nil => simp [firstAttention, hk]
  | cons x xs ih =>
    rw [List.find?_cons] at h
    split at h
    · cases h
    · rename_i hx
      simp only [List.cons_append, firstAttention, hx]
      exact ih h

/-- R159: the station as it becomes BLANK: from ATTENTION the indicator's text changes. -/
def Station.opened (st : Station) : Station :=
  { st with
    state := .blank, lock := .none
    paint := if st.state = .attention then st.paint.add false .message else st.paint }

/-- R159: without a form the lock is not told apart from the state. -/
theorem indicator_formless {x : StationState} (hx : x ≠ .entry) (l m : Lock) : indicator x l none = indicator x m none := by
  cases x with
  | entry => exact absurd rfl hx
  | _ => rfl

theorem indicator_sent_ne_noForm (l m : Lock) : indicator .attention l none ≠ indicator .blank m none := by
  rw [indicator_formless (by decide) l .none, indicator_formless (by decide) m .none]
  decide

theorem Station.withIndicator_opened {st : Station} (hc : st.ctx = none) (hs : st.state = .blank ∨ st.state = .attention) :
    st.withIndicator (fun st => { st with state := .blank, lock := .none }) = st.opened := by
  rcases hs with hs | hs
  · rw [Station.withIndicator_of_eq (by simp only [hc, hs]; exact indicator_formless (by decide) _ _)]
    simp [Station.opened, hs]
  · unfold Station.withIndicator
    simp only [hc, hs]
    rw [if_neg (indicator_sent_ne_noForm _ _).symm]
    simp [Station.opened, hs, hc]

/-- R137: an attention latches at a BLANK station. -/
theorem Station.withIndicator_latched {st : Station} (hc : st.ctx = none) (hs : st.state = .blank) :
    st.withIndicator (fun st => { st with state := .attention, lock := .system })
      = { st with state := .attention, lock := .system, paint := st.paint.add false .message } := by
  unfold Station.withIndicator
  simp only [hc, hs]
  rw [if_neg (indicator_sent_ne_noForm _ _)]
  simp

/-- R37, R44, R127: a record that opens a station without a form. -/
theorem State.openBlank_opens (hc : (s.station i).ctx = none)
    (hs : (s.station i).state = .blank ∨ (s.station i).state = .attention) (kind : Nat) :
    OpensBlank s ((s.hunting.openBlank i).doneRecord i g kind) i g kind := by
  have opened : s.hunting.setLock i .blank .none = s.hunting.setStation i (s.station i).opened := by
    rw [State.setLock_eq]
    exact congrArg _ (Station.withIndicator_opened hc hs)
  unfold OpensBlank State.openBlank
  rw [opened]
  simp only [State.station_setStation_self, State.modStation_eq]
  refine ⟨fun h => ?_, fun skipped k rest hover hqueue hskip hk => ?_⟩
  · by_cases hover : (s.station i).overrun = true
    · rw [if_pos (by exact hover)]
      simp [State.setStation, State.doneRecord, State.place, State.replied, State.hunting, Station.opened]
    · rw [if_neg (by exact hover)]
      have none := firstAttention_of_none (h.resolve_left hover)
      rw [show (s.station i).opened.typeAhead = (s.station i).typeAhead from rfl, none]
      simp [State.setStation, State.doneRecord, State.place, State.replied, State.hunting, Station.opened, hover]
  · rw [if_neg (by simp [Station.opened, hover]), show (s.station i).opened.typeAhead = (s.station i).typeAhead from rfl,
      hqueue, firstAttention_append hskip hk]
    simp only [State.latchBlank, State.setLock_eq, State.station_setStation_self]
    rw [Station.withIndicator_latched (by exact hc) rfl]
    simp [State.setStation, State.doneRecord, State.place, State.placeAttention, State.replied, State.hunting,
      Station.opened, hover]

/-! ### O40 -/

/-- R44: a RELEASE at a station with a form, as the state it leaves. -/
theorem exec_release_some (h : Receiving s g) (hr : Ready s i) (hc : (s.station i).ctx.isSome = true) :
    exec (.release i) s = .next (if s.endsAtOnce i then s.hunting.released i g else s.hunting.beginReleasing i g) := by
  rw [exec_release h hr, State.takeRelease_some (s := s.hunting) hc]
  rfl

/-- R44: the general slots but for that of the RELEASE. -/
theorem State.release_general_ne {h : GenId} (hg : h ≠ g) :
    (if s.endsAtOnce i then s.hunting.released i g else s.hunting.beginReleasing i g).general[h]
      = (s.reportFreed i)[h] := by
  split
  · simp only [State.released, getElem_set_fin, if_neg hg]
    rfl
  · rfl

/-- R44: what a RELEASE leaves whether RELEASING ends at once or not. -/
structure ReleaseDrops (s t : State) (i : StationId) (g : GenId) : Prop where
  confined : Confined s t i g
  rows : t.freeRows = s.freeRows + rowsHeld (s.station i)
  report : ∀ h, (s.station i).reportSlot = some h → t.general[h] = .free
  attention : t.attention = s.attention
  raw : ∀ e, e ≠ .templateFreed → t.raw.has e = s.raw.has e
  dropped : FormDropped s t i

theorem State.release_drops (hg : (s.station i).reportSlot ≠ some g)
    (hc : (s.station i).ctx.isSome = true) :
    ReleaseDrops s (if s.endsAtOnce i then s.hunting.released i g else s.hunting.beginReleasing i g) i g := by
  have only : OnlyStation i s.hunting (s.hunting.takeRelease i g) := State.takeRelease_only _ _
  rw [State.takeRelease_some (s := s.hunting) hc] at only
  have frame := State.dropContext_frame s.hunting i
  have raw := State.dropContext_raw s.hunting i
  have fields : ∀ t, t = s.hunting.released i g ∨ t = s.hunting.beginReleasing i g →
      t.freeRows = (s.hunting.dropContext i).freeRows ∧ t.attention = (s.hunting.dropContext i).attention
        ∧ t.raw = (s.hunting.dropContext i).raw ∧ t.table = (s.hunting.dropContext i).table
        ∧ t.event = (s.hunting.dropContext i).event := by
    rintro t (rfl | rfl) <;> exact ⟨rfl, rfl, rfl, rfl, rfl⟩
  obtain ⟨hrows, hattention, hraw, htable, hevent⟩ :=
    fields (if s.endsAtOnce i then s.hunting.released i g else s.hunting.beginReleasing i g)
      (by split; exacts [.inl rfl, .inr rfl])
  refine ⟨only.confined fun k hk hreport => ?_, ?_, fun k hk => ?_, ?_, fun e he => ?_, ?_⟩
  · rw [show s.hunting.endsAtOnce i = s.endsAtOnce i from rfl, State.release_general_ne hk,
      State.reportFreed_getElem, if_neg hreport]
  · rw [hrows, frame]
    rfl
  · rw [State.release_general_ne (by rintro rfl; exact hg hk), State.reportFreed_getElem, if_pos hk.symm]
  · rw [hattention, frame]
    rfl
  · rw [hraw]
    rcases raw with e' | e' <;> rw [e']
    · rfl
    · exact RawEvents.raise_templateFreed_has _ he
  · exact (State.dropContext_formDropped s.hunting i).of_hunting htable hraw hevent

/-- Settles O40: at a station with a form the RELEASE leaves RELEASING, or its end at once; at one without, the station
is opened. -/
theorem releaseDropsForm : Obligations.ReleaseDropsForm := by
  intro s i g h hr hg
  extract_lets st atOnce clearing
  have once : s.endsAtOnce i = true ↔ atOnce := State.endsAtOnce_iff
  have opens : st.ctx = none → st.state = .blank ∨ st.state = .attention →
      ∃ t, exec (.release i) s = .next t ∧ OpensBlank s t i g 0x27 := fun hc hs => by
    refine ⟨_, exec_release h hr, ?_⟩
    have none : s.hunting.takeRelease i g = (s.hunting.openBlank i).doneRecord i g 0x27 := by
      unfold State.takeRelease
      rw [show (s.hunting.station i).ctx = none from hc]
    rw [none]
    exact State.openBlank_opens hc hs _
  refine ⟨fun hc => ?_, fun hc hs hl hq ho => ?_, opens⟩
  · have drops := State.release_drops hg hc
    have run := exec_release_some h hr hc
    have waiting := State.dropContext_waiting_filter s.hunting i
    refine ⟨_, run, drops.confined, drops.rows, drops.report, drops.attention, drops.raw, drops.dropped,
      fun ha => ?_, fun ha => ?_, fun ha => ?_, fun ha => ?_⟩
    · rw [if_pos (once.mpr ha)]
      simp only [State.released, List.filter_append, waiting]
      rfl
    · rw [if_neg (mt once.mp ha)]
      exact waiting
    · rw [if_neg (mt once.mp ha)]
      refine ⟨?_, ?_⟩
      · rw [show (s.hunting.beginReleasing i g).general[g] = (s.reportFreed i)[g] from rfl, State.reportFreed_getElem,
          if_neg fun e => hg e.symm]
      · simp only [State.beginReleasing, State.station, Vector.getElem_set_self, Fin.getElem_fin]
        rfl
    · rw [if_pos (once.mpr ha)]
      refine ⟨?_, ?_⟩
      · simp only [State.released, getElem_set_fin, if_true]
        rfl
      · simp only [State.released, State.station, Vector.getElem_set_self, Fin.getElem_fin]
        rfl
  · obtain ⟨t, run, quiet, -⟩ := opens hc (.inl hs)
    rw [run, quiet (.inr (by rw [hq]; rfl))]
    have self : s.stations.set i st = s.stations := by simp [st, State.station]
    have same : ({ st with
        state := .blank, lock := .none, typeAhead := [], overrun := false
        paint := if st.state = .attention then st.paint.add false .message else st.paint } : Station) = st := by
      rw [if_neg (by rw [hs]; decide), ← hs, ← hl, ← hq, ← ho]
    rw [same, self]
    rfl

end Sys2Proof.Machine

/-! PROOFS. DETACH STATION (R188, R47): the answers DETACHED as one list of slots, the removals from the transmit queue,
and how they come in order (O15). -/

namespace Sys2Proof.Machine

variable {s : State} {i : StationId} {g : GenId}

/-! ### The answers DETACHED -/

/-- R188: the exception DETACHED to a record of a kind, as its slot holds it. -/
def detachedSlot (i : StationId) (kind : Nat) : GeneralSlot :=
  .occupied (stationNumber i) (stationException i kind .detached none none)

/-- R188: answers to records of station `i`, each with its kind and slot, in order. -/
def State.answerAll (s : State) (i : StationId) (l : List (Nat × GenId)) : State :=
  l.foldl (fun s p => s.answerDetached i p.1 p.2) s

/-- The general slots after such answers. -/
def answeredSlots (i : StationId) (l : List (Nat × GenId)) (slots : Vector GeneralSlot 24) : Vector GeneralSlot 24 :=
  l.foldl (fun slots p => slots.set p.2 (detachedSlot i p.1)) slots

/-- The names of the slots of answers. -/
def slotNames (l : List (Nat × GenId)) : List SlotName := l.map fun p => .general p.2

theorem State.answerAll_append (s : State) (i : StationId) (l m : List (Nat × GenId)) :
    (s.answerAll i l).answerAll i m = s.answerAll i (l ++ m) := (List.foldl_append).symm

theorem State.answerAll_eq (s : State) (i : StationId) (l : List (Nat × GenId)) : s.answerAll i l = { s with
    general := answeredSlots i l s.general, waiting := s.waiting ++ slotNames l } := by
  induction l generalizing s with
  | nil => simp [State.answerAll, answeredSlots, slotNames]
  | cons p rest ih =>
    rw [show s.answerAll i (p :: rest) = (s.answerDetached i p.1 p.2).answerAll i rest from rfl, ih]
    simp [State.answerDetached, State.refuseRecord, State.place, answeredSlots, slotNames, detachedSlot, stationException]

/-- A slot holds what it held, or the answer to a record that has it. -/
theorem answeredSlots_getElem (i : StationId) (l : List (Nat × GenId)) (slots : Vector GeneralSlot 24) (h : GenId) :
    h ∉ l.map Prod.snd ∧ (answeredSlots i l slots)[h] = slots[h]
      ∨ ∃ k, (k, h) ∈ l ∧ (answeredSlots i l slots)[h] = detachedSlot i k := by
  induction l generalizing slots with
  | nil => exact .inl ⟨by simp, rfl⟩
  | cons p rest ih =>
    rcases ih (slots.set p.2 (detachedSlot i p.1)) with ⟨hnot, e⟩ | ⟨k, hk, e⟩
    · rw [getElem_set_fin] at e
      by_cases hp : h = p.2
      · rw [if_pos hp] at e
        exact .inr ⟨p.1, by simp [hp], e⟩
      · rw [if_neg hp] at e
        exact .inl ⟨by simpa [hp] using hnot, e⟩
    · exact .inr ⟨k, .tail _ hk, e⟩

theorem answeredSlots_of_not_mem {l : List (Nat × GenId)} {h : GenId} (hl : h ∉ l.map Prod.snd)
    (slots : Vector GeneralSlot 24) : (answeredSlots i l slots)[h] = slots[h] := by
  rcases answeredSlots_getElem i l slots h with ⟨-, e⟩ | ⟨k, hk, -⟩
  · exact e
  · exact absurd (List.mem_map_of_mem hk) hl

/-- With a slot for each record, every slot holds its own answer. -/
theorem answeredSlots_of_mem {l : List (Nat × GenId)} (hl : (l.map Prod.snd).Nodup) {k : Nat} {h : GenId} (hk : (k, h) ∈ l)
    (slots : Vector GeneralSlot 24) : (answeredSlots i l slots)[h] = detachedSlot i k := by
  rcases answeredSlots_getElem i l slots h with ⟨hnot, -⟩ | ⟨k', hk', e⟩
  · exact absurd (List.mem_map_of_mem hk) hnot
  · rw [e, (Prod.mk.inj (List.inj_on_of_nodup_map hl hk hk' rfl)).1]

/-! ### Removals from the transmit queue (R186) -/

/-- R186: a removal changes the transmitter, or else the waiting records. -/
theorem State.removeRecord_frame (s : State) (n : SlotName) : s.removeRecord n = { s with
    tx := (s.removeRecord n).tx, cuts := (s.removeRecord n).cuts, waiting := (s.removeRecord n).waiting } := by
  unfold State.removeRecord
  split
  · unfold State.cut
    split <;> rfl
  · rfl

/-- The record of a slot taken out of the transmit queue, when there is one. -/
def State.removeSome (s : State) (o : Option SlotName) : State := o.elim s s.removeRecord

theorem State.removeSome_frame (s : State) (o : Option SlotName) : s.removeSome o = { s with
    tx := (s.removeSome o).tx, cuts := (s.removeSome o).cuts, waiting := (s.removeSome o).waiting } := by
  cases o with
  | none => rfl
  | some n => exact State.removeRecord_frame s n

theorem State.isSending_iff {n : SlotName} : s.isSending n = true ↔ ∃ octets, s.tx = .sending n octets := by
  unfold State.isSending
  cases s.tx <;> simp

/-- R186: a record in transmission is cut; one that waits is removed. -/
theorem State.removeRecord_sending {n : SlotName} {octets : List Byte} (h : s.tx = .sending n octets) :
    (s.removeRecord n).tx = .completing (cutFrame octets (s.octetsSent octets))
      ∧ (s.removeRecord n).waiting = s.waiting := by
  unfold State.removeRecord
  rw [if_pos (State.isSending_iff.mpr ⟨octets, h⟩)]
  unfold State.cut
  simp [h]

theorem State.removeRecord_waiting {n : SlotName} (h : ∀ octets, s.tx ≠ .sending n octets) :
    (s.removeRecord n).tx = s.tx ∧ (s.removeRecord n).waiting = s.waiting.filter (fun m => m != n) := by
  have idle : s.isSending n = false := by
    rw [← Bool.not_eq_true, State.isSending_iff]
    rintro ⟨octets, e⟩
    exact h octets e
  unfold State.removeRecord
  simp [idle]

/-- R186: where the record in transmission does not wait as well, a removal leaves the other waiting records. -/
theorem State.removeRecord_filter {n : SlotName} (h : ∀ octets, s.tx = .sending n octets → n ∉ s.waiting) :
    (s.removeRecord n).waiting = s.waiting.filter (fun m => m != n) := by
  by_cases hs : ∃ octets, s.tx = .sending n octets
  · obtain ⟨octets, hs⟩ := hs
    rw [(State.removeRecord_sending hs).2]
    refine (List.filter_eq_self.mpr fun m hm => ?_).symm
    rw [bne_iff_ne]
    rintro rfl
    exact h octets hs hm
  · exact (State.removeRecord_waiting fun octets e => hs ⟨octets, e⟩).2

/-- Answers in other slots and a removal do not meet. -/
theorem State.answerAll_removeRecord {l : List (Nat × GenId)} {n : SlotName} (h : n ∉ slotNames l) :
    (s.answerAll i l).removeRecord n = (s.removeRecord n).answerAll i l := by
  rw [State.answerAll_eq s, State.answerAll_eq (s.removeRecord n)]
  unfold State.removeRecord
  have same : State.isSending { s with general := answeredSlots i l s.general, waiting := s.waiting ++ slotNames l } n
      = s.isSending n := rfl
  rw [same]
  split
  · unfold State.cut
    cases htx : s.tx with
    | idle => simp only [htx]
    | completing octets => simp only [htx]
    | sending m octets => rfl
  · have kept : (slotNames l).filter (fun m => m != n) = slotNames l := List.filter_eq_self.mpr fun m hm => by
      rw [bne_iff_ne]
      rintro rfl
      exact h hm
    simp [List.filter_append, kept]

theorem State.answerAll_removeSome {l : List (Nat × GenId)} {o : Option SlotName} (h : ∀ n, o = some n → n ∉ slotNames l) :
    (s.answerAll i l).removeSome o = (s.removeSome o).answerAll i l := by
  cases o with
  | none => rfl
  | some n => exact State.answerAll_removeRecord (h n rfl)

/-! ### The steps of R188 -/

/-- R188 item 1: the records whose answers were deferred. -/
def Station.deferred (st : Station) : List (Nat × GenId) :=
  st.reportSlot.toList.map (fun h => (0x20, h)) ++ st.releaseSlot.toList.map (fun h => (0x27, h))

/-- R188 item 3: the records of the queue. -/
def Station.waitingRecords (st : Station) : List (Nat × GenId) := st.records.map fun q => (stationKind q.record, q.slot)

theorem State.detachDeferred_eq (s : State) (i : StationId) :
    s.detachDeferred i = s.answerAll i (s.station i).deferred := by
  unfold State.detachDeferred Station.deferred
  dsimp only
  cases (s.station i).reportSlot with
  | none => cases (s.station i).releaseSlot <;> rfl
  | some k => cases (s.station i).releaseSlot <;> rfl

theorem State.detachQueue_eq (s : State) (i : StationId) :
    s.detachQueue i = s.answerAll i (s.station i).waitingRecords := by
  simp only [State.detachQueue, State.answerAll, Station.waitingRecords, List.foldl_map]

theorem State.detachSnapshot_eq (s : State) (i : StationId) : s.detachSnapshot i =
    (s.removeSome ((s.snapshotSlot i).map .general)).answerAll i ((s.snapshotSlot i).toList.map fun h => (0x26, h)) := by
  unfold State.detachSnapshot
  cases s.snapshotSlot i <;> rfl

/-- The attention slot whose record is taken out. -/
def State.attentionHeld (s : State) (i : StationId) : Option SlotName :=
  if s.attention[i].isSome then some (.attention i) else none

theorem State.detachAttention_eq (s : State) (i : StationId) : s.detachAttention i =
    { s.removeSome (s.attentionHeld i) with attention := s.attention.set i none } := by
  unfold State.detachAttention State.attentionHeld
  split
  · have same : (s.removeRecord (.attention i)).attention = s.attention := by rw [State.removeRecord_frame]
    simp [State.removeSome, same]
  · rename_i h
    have empty : s.attention.set i none = s.attention := by
      rw [← Option.not_isSome_iff_eq_none.mp h]
      simp
    rw [empty]
    rfl

/-- The slot of the SNAPSHOT record is found as before where other slots are answered. -/
theorem State.snapshotSlot_answerAll {l : List (Nat × GenId)} (h : ∀ k, s.snapshotSlot i = some k → k ∉ l.map Prod.snd) :
    (s.answerAll i l).snapshotSlot i = s.snapshotSlot i := by
  have fewer : ∀ k : GenId, (answeredSlots i l s.general)[k] = .occupied (stationNumber i) .snapshot →
      s.general[k] = .occupied (stationNumber i) .snapshot := fun k e => by
    rcases answeredSlots_getElem i l s.general k with ⟨-, e'⟩ | ⟨kind, -, e'⟩
    · rwa [e'] at e
    · rw [e'] at e
      simp [detachedSlot, stationException] at e
  rw [State.answerAll_eq]
  unfold State.snapshotSlot at *
  cases hf : genIds.find? (fun k => s.general[k] == .occupied (stationNumber i) .snapshot) with
  | none =>
    rw [List.find?_eq_none] at hf ⊢
    intro k hk e
    exact hf k hk (by simpa using fewer k (by simpa using e))
  | some k =>
    obtain ⟨hk, before, after, hl, hbefore⟩ := List.find?_eq_some_iff_append.mp hf
    refine List.find?_eq_some_iff_append.mpr ⟨?_, before, after, hl, fun m hm => ?_⟩
    · dsimp only
      rw [answeredSlots_of_not_mem (h k hf)]
      exact hk
    · have := hbefore m hm
      simp only [Bool.not_eq_true', beq_eq_false_iff_ne, ne_eq] at this ⊢
      exact fun e => this (fewer m e)

/-- R188: the answers of a DETACH STATION in their order. -/
def State.detachedAnswers (s : State) (i : StationId) : List (Nat × GenId) :=
  (s.station i).deferred ++ (s.snapshotSlot i).toList.map (fun h => (0x26, h)) ++ (s.station i).waitingRecords

theorem State.detachedAnswers_slots (s : State) (i : StationId) :
    (s.detachedAnswers i).map Prod.snd = detachedSlots s i := by
  simp [State.detachedAnswers, detachedSlots, Station.deferred, Station.waitingRecords, Function.comp_def]

/-- The transmit queue and the attention slots once the records of a station are out. -/
def State.purged (s : State) (i : StationId) : State :=
  { (s.removeSome ((s.snapshotSlot i).map .general)).removeSome (s.attentionHeld i) with
    attention := s.attention.set i none }

theorem State.answerAll_station (s : State) (l : List (Nat × GenId)) : (s.answerAll i l).station i = s.station i := by
  rw [State.answerAll_eq]
  rfl

theorem State.purged_station (s : State) (i j : StationId) : (s.purged i).station j = s.station j := by
  unfold State.purged
  rw [State.removeSome_frame, State.removeSome_frame s]
  rfl

/-- The answers do not look at the attention slots. -/
theorem State.answerAll_attention (s : State) (l : List (Nat × GenId)) (v : Vector (Option Byte) 16) :
    ({ s.answerAll i l with attention := v } : State) = ({ s with attention := v } : State).answerAll i l := by
  rw [State.answerAll_eq, State.answerAll_eq]

/-- The slots of the transmit queue that the removals name are not answered before them. -/
theorem State.purge_names {l : List (Nat × GenId)} (h : ∀ k, s.snapshotSlot i = some k → k ∉ l.map Prod.snd) :
    ∀ n, (s.snapshotSlot i).map SlotName.general = some n → n ∉ slotNames l := by
  intro n hn hmem
  obtain ⟨k, hk, rfl⟩ := Option.map_eq_some_iff.mp hn
  obtain ⟨p, hp, e⟩ := List.mem_map.mp hmem
  cases e
  exact h p.2 hk (List.mem_map_of_mem hp)

theorem State.attentionHeld_names (s : State) (i : StationId) (l : List (Nat × GenId)) :
    ∀ n, s.attentionHeld i = some n → n ∉ slotNames l := by
  intro n hn hmem
  unfold State.attentionHeld at hn
  split at hn <;> cases hn
  obtain ⟨p, -, e⟩ := List.mem_map.mp hmem
  cases e

/-- R188: the steps, as the removals and one list of answers. -/
theorem State.detachSteps_eq (honce : (detachedSlots s i).Nodup) :
    (((s.detachDeferred i).detachSnapshot i).detachAttention i).detachQueue i
      = (s.purged i).answerAll i (s.detachedAnswers i) := by
  have apart : ∀ k, s.snapshotSlot i = some k → k ∉ (s.station i).deferred.map Prod.snd := fun k hk hmem => by
    rw [← State.detachedAnswers_slots] at honce
    simp only [State.detachedAnswers, hk, List.map_append] at honce
    exact (List.nodup_append.mp (List.nodup_append.mp honce).1).2.2 k hmem k (by simp) rfl
  have found := State.snapshotSlot_answerAll apart
  have attention : ∀ l, ((s.removeSome ((s.snapshotSlot i).map .general)).answerAll i l).attentionHeld i
      = s.attentionHeld i := fun l => by
    rw [State.answerAll_eq, State.removeSome_frame]
    rfl
  have slots : ∀ l, ((s.removeSome ((s.snapshotSlot i).map .general)).answerAll i l).attention = s.attention := fun l => by
    rw [State.answerAll_eq, State.removeSome_frame]
  rw [State.detachDeferred_eq, State.detachSnapshot_eq, found, State.answerAll_removeSome (State.purge_names apart),
    State.answerAll_append, State.detachAttention_eq, attention, slots,
    State.answerAll_removeSome (State.attentionHeld_names _ _ _), State.answerAll_attention]
  change ((s.purged i).answerAll i _).detachQueue i = _
  rw [State.detachQueue_eq, State.answerAll_station, State.purged_station, State.answerAll_append]
  rfl

/-! ### What the removals leave (R186) -/

theorem State.removeSome_tx {o : Option SlotName} (h : ∀ n octets, o = some n → s.tx ≠ .sending n octets) :
    (s.removeSome o).tx = s.tx := by
  cases o with
  | none => rfl
  | some n => exact (State.removeRecord_waiting fun octets => h n octets rfl).1

theorem State.removeSome_waiting {o : Option SlotName}
    (h : ∀ n octets, o = some n → s.tx = .sending n octets → n ∉ s.waiting) :
    (s.removeSome o).waiting = s.waiting.filter (fun m => !o.any (fun n => m == n)) := by
  cases o with
  | none => simp [State.removeSome]
  | some n => exact State.removeRecord_filter fun octets => h n octets rfl

/-- A record in transmission after a removal was so before it. -/
theorem State.removeSome_sending {o : Option SlotName} {n : SlotName} {octets : List Byte}
    (h : (s.removeSome o).tx = .sending n octets) : s.tx = .sending n octets := by
  cases o with
  | none => exact h
  | some m =>
    by_cases hs : ∃ octets, s.tx = .sending m octets
    · obtain ⟨sent, hs⟩ := hs
      have := (State.removeRecord_sending hs).1.symm.trans h
      cases this
    · rwa [← (State.removeRecord_waiting fun octets e => hs ⟨octets, e⟩).1]

theorem State.purged_frame (s : State) (i : StationId) : s.purged i = { s with
    tx := (s.purged i).tx, cuts := (s.purged i).cuts, waiting := (s.purged i).waiting
    attention := s.attention.set i none } := by
  have first := State.removeSome_frame s ((s.snapshotSlot i).map .general)
  have second := State.removeSome_frame (s.removeSome ((s.snapshotSlot i).map .general)) (s.attentionHeld i)
  unfold State.purged
  generalize s.removeSome ((s.snapshotSlot i).map .general) = u at *
  generalize u.removeSome (s.attentionHeld i) = w at *
  rw [second, first]

theorem State.attentionHeld_eq {n : SlotName} (h : s.attentionHeld i = some n) :
    n = .attention i ∧ s.attention[i].isSome = true := by
  unfold State.attentionHeld at h
  split at h <;> cases h
  exact ⟨rfl, by assumption⟩

/-- R188, R186: a record of the station in transmission is cut. -/
theorem State.purged_cut {m : SlotName} {octets : List Byte} (htx : s.tx = .sending m octets)
    (hm : m = .attention i ∧ s.attention[i].isSome = true ∨ ∃ h, m = .general h ∧ s.snapshotSlot i = some h) :
    ∃ k, (octets ≠ [] → k < octets.length) ∧ (s.purged i).tx = .completing (cutFrame octets k) := by
  have cut : ∀ {t : State}, t.tx = .sending m octets → ∃ k, (octets ≠ [] → k < octets.length)
      ∧ (t.removeRecord m).tx = .completing (cutFrame octets k) := fun {t} ht =>
    ⟨t.octetsSent octets, State.octetsSent_lt, (State.removeRecord_sending ht).1⟩
  rcases hm with ⟨rfl, hsome⟩ | ⟨h, rfl, hslot⟩
  · have held : s.attentionHeld i = some (.attention i) := if_pos hsome
    have first : (s.removeSome ((s.snapshotSlot i).map .general)).tx = .sending (.attention i) octets := by
      rw [State.removeSome_tx fun n sent hn e => ?_, htx]
      obtain ⟨k, -, rfl⟩ := Option.map_eq_some_iff.mp hn
      rw [htx] at e
      cases e
    unfold State.purged
    rw [held]
    exact cut first
  · obtain ⟨k, hk, e⟩ := cut htx
    refine ⟨k, hk, ?_⟩
    unfold State.purged
    rw [hslot]
    dsimp only [Option.map_some]
    rw [State.removeSome_tx fun n sent hn e' => ?_]
    · exact e
    · rw [show (s.removeSome (some (.general h))).tx = _ from e] at e'
      cases e'

/-- R188: with no record of the station in transmission, the transmitter goes on. -/
theorem State.purged_tx (ha : ∀ octets, s.tx ≠ .sending (.attention i) octets)
    (hs : ∀ h octets, s.snapshotSlot i = some h → s.tx ≠ .sending (.general h) octets) : (s.purged i).tx = s.tx := by
  have first : (s.removeSome ((s.snapshotSlot i).map .general)).tx = s.tx :=
    State.removeSome_tx fun n octets hn => by
      obtain ⟨h, hh, rfl⟩ := Option.map_eq_some_iff.mp hn
      exact hs h octets hh
  unfold State.purged
  dsimp only
  rw [State.removeSome_tx fun n octets hn => ?_, first]
  rw [first, (State.attentionHeld_eq hn).1]
  exact ha octets

/-- R188: the waiting records without those of the station. -/
theorem State.purged_waiting (ha : ∀ octets, s.tx = .sending (.attention i) octets → .attention i ∉ s.waiting)
    (hs : ∀ h octets, s.tx = .sending (.general h) octets → .general h ∉ s.waiting)
    (hheld : SlotName.attention i ∈ s.waiting → s.attention[i].isSome = true) :
    (s.purged i).waiting = s.waiting.filter (fun m => m != .attention i
      && !(s.snapshotSlot i).any (fun h => m == .general h)) := by
  have first : (s.removeSome ((s.snapshotSlot i).map .general)).waiting
      = s.waiting.filter (fun m => !(s.snapshotSlot i).any (fun h => m == .general h)) := by
    rw [State.removeSome_waiting fun n octets hn e => ?_]
    · simp [Option.any_map]
    · obtain ⟨h, -, rfl⟩ := Option.map_eq_some_iff.mp hn
      exact hs h octets e
  unfold State.purged
  dsimp only
  rw [State.removeSome_waiting fun n octets hn e => ?_, first, List.filter_filter]
  · refine List.filter_congr fun m hm => ?_
    congr 1
    unfold State.attentionHeld
    split
    · rfl
    · rename_i hnone
      have : m ≠ .attention i := fun e => hnone (hheld (e ▸ hm))
      simp [this]
  · rw [(State.attentionHeld_eq hn).1, first]
    rw [(State.attentionHeld_eq hn).1] at e
    exact fun hm => ha octets (State.removeSome_sending e) (List.mem_of_mem_filter hm)

/-! ### DETACH STATION -/

/-- R163, R164: the loop after the detachment of a station: a visit to it ends. -/
def Loop.leftBy (l : Loop) (i : StationId) : Loop :=
  if l.visit.any (fun x => x.station == i) then l.visited i else l

theorem State.endDetachedVisit_eq (h : s.loop.pendingStop = none) :
    s.endDetachedVisit i = { s with loop := s.loop.leftBy i } := by
  unfold State.endDetachedVisit Loop.leftBy
  cases hv : s.loop.visit with
  | none => simp [State.applyPendingStop, h]
  | some x =>
    by_cases hx : x.station = i
    · simp [hx, State.endVisit, State.applyPendingStop, h, Loop.visited]
    · simp [hx]

/-- The drop of the form leaves the records of the station as they are. -/
theorem State.dropContext_records (s : State) (i : StationId) :
    (s.dropContext i).detachedAnswers i = s.detachedAnswers i ∧ detachedSlots (s.dropContext i) i = detachedSlots s i
      ∧ (s.dropContext i).snapshotSlot i = s.snapshotSlot i := by
  have frame := State.dropContext_frame s i
  have general : (s.dropContext i).general = s.general := by rw [frame]
  have snapshot : (s.dropContext i).snapshotSlot i = s.snapshotSlot i := by
    simp only [State.snapshotSlot, general]
  have station : (s.dropContext i).station i
      = if (s.station i).ctx.isSome then (s.station i).formless else s.station i := by
    rw [frame]
    simp [State.station]
  have answers : (s.dropContext i).detachedAnswers i = s.detachedAnswers i := by
    unfold State.detachedAnswers
    rw [station, snapshot]
    split <;> rfl
  refine ⟨answers, ?_, snapshot⟩
  rw [← State.detachedAnswers_slots, answers, State.detachedAnswers_slots]

/-- R188: what a DETACH STATION leaves of an attached station and of the transmit queue. -/
def State.detached (s : State) (i : StationId) (g : GenId) : State :=
  { (s.dropContext i).purged i with
    general := (answeredSlots i (s.detachedAnswers i) s.general).set g (.occupied 0 (.done 0x07))
    waiting := ((s.dropContext i).purged i).waiting ++ slotNames (s.detachedAnswers i) ++ [.general g]
    stations := s.stations.set i Station.detachedRecord
    loop := s.loop.leftBy i }

theorem State.clearStation_eq (honce : (detachedSlots s i).Nodup) : s.clearStation i =
    (((s.dropContext i).purged i).answerAll i (s.detachedAnswers i)).setStation i Station.detachedRecord := by
  obtain ⟨answers, slots, -⟩ := State.dropContext_records s i
  unfold State.clearStation
  dsimp only
  rw [State.detachSteps_eq (slots ▸ honce), answers]

theorem stationOf_number (i : StationId) : stationOf (i.val + 1) = some i := by
  unfold stationOf
  rw [dif_pos ⟨by omega, by omega⟩]
  rfl

theorem State.detachStation_attached (hs : (s.station i).state ≠ .detached) (hp : s.loop.pendingStop = none)
    (honce : (detachedSlots s i).Nodup) : s.detachStation (i.val + 1) g = s.detached i g := by
  have attached : s.attached i = true := by simpa [State.attached] using hs
  have purged := State.purged_frame (s.dropContext i) i
  have frame := State.dropContext_frame s i
  have loop : ((s.dropContext i).purged i).loop = s.loop := by rw [purged, frame]
  have general : ((s.dropContext i).purged i).general = s.general := by rw [purged, frame]
  have stations : ((s.dropContext i).purged i).stations.set i Station.detachedRecord
      = s.stations.set i Station.detachedRecord := by
    rw [purged, frame]
    simp
  unfold State.detachStation
  rw [stationOf_number]
  simp only [attached, Bool.not_true, Bool.false_eq_true, if_false]
  rw [State.clearStation_eq honce, State.answerAll_eq]
  rw [State.endDetachedVisit_eq (by simpa [State.answer, State.place, State.setStation, loop] using hp)]
  simp only [State.answer, State.place, State.setStation, State.detached, loop, general, stations, detachKind]

theorem exec_detachStation (h : Receiving s g) (n : Nat) :
    exec (.detachStation n) s = .next (s.hunting.detachStation n g) :=
  congrArg Host.Outcome.next (State.arrive_receiving h fun s g => s.detachStation n g)

/-- R47: what the drop of the form and the removals leave alone, and what they write. -/
theorem State.detached_frame (s : State) (i : StationId) (g : GenId) : s.detached i g = { s with
    general := (s.detached i g).general, attention := s.attention.set i none, event := (s.dropContext i).event
    waiting := (s.detached i g).waiting, tx := (s.detached i g).tx, cuts := (s.detached i g).cuts
    raw := (s.dropContext i).raw, table := (s.dropContext i).table
    freeRows := s.freeRows + rowsHeld (s.station i), stations := s.stations.set i Station.detachedRecord
    loop := s.loop.leftBy i } := by
  have dropped := State.dropContext_frame s i
  have purged := State.purged_frame (s.dropContext i) i
  unfold State.detached
  generalize (s.dropContext i).purged i = p at *
  generalize s.dropContext i = d at *
  rw [purged, dropped]

/-- R188: the general slots after a DETACH STATION: the answers, its DONE, and the others as they were. -/
theorem State.detached_general (honce : (detachedSlots s i ++ [g]).Nodup) :
    (s.detached i g).general[g] = .occupied 0 (.done 0x07)
      ∧ (∀ k h, (k, h) ∈ s.detachedAnswers i → (s.detached i g).general[h] = detachedSlot i k)
      ∧ ∀ h, h ∉ detachedSlots s i ++ [g] → (s.detached i g).general[h] = s.general[h] := by
  obtain ⟨once, -, apart⟩ := List.nodup_append.mp honce
  rw [← State.detachedAnswers_slots] at once apart ⊢
  simp only [State.detached, getElem_set_fin]
  refine ⟨if_pos trivial, fun k h hk => ?_, fun h hh => ?_⟩
  · rw [if_neg (apart h (List.mem_map_of_mem hk) g (by simp)), answeredSlots_of_mem once hk]
  · simp only [List.mem_append, List.mem_singleton, not_or] at hh
    rw [if_neg hh.2, answeredSlots_of_not_mem hh.1]

/-- R188, R186: the transmitter after a DETACH STATION is that after the station's records are taken out. -/
theorem State.detached_tx (s : State) (i : StationId) (g : GenId) :
    (s.dropContext i).tx = s.tx ∧ (s.detached i g).tx = ((s.dropContext i).purged i).tx :=
  ⟨(State.dropContext_only (i := i) s).tx, rfl⟩

/-- R188: the answers come last, in their order, and the DONE behind them. -/
theorem State.detached_replies (s : State) (i : StationId) (g : GenId) : (s.detached i g).waiting =
    ((s.dropContext i).purged i).waiting ++ (detachedSlots s i ++ [g]).map SlotName.general := by
  have names : slotNames (s.detachedAnswers i) = (detachedSlots s i).map SlotName.general := by
    rw [← State.detachedAnswers_slots, List.map_map]
    rfl
  simp [State.detached, names]

/-- R188: the waiting records after a DETACH STATION, apart from the EVENT NOTICE. -/
theorem State.detached_waiting (hout : ∀ m octets, s.tx = .sending m octets → m ∉ s.waiting)
    (hheld : SlotName.attention i ∈ s.waiting → s.attention[i].isSome = true) :
    (s.detached i g).waiting.filter (fun m => m != .event)
      = (s.waiting.filter (fun m => m != .event && m != .attention i
          && !(s.snapshotSlot i).any (fun h => m == .general h)))
        ++ (detachedSlots s i ++ [g]).map SlotName.general := by
  have dropped := State.dropContext_waiting_filter s i
  have frame := State.dropContext_frame s i
  have attention : (s.dropContext i).attention = s.attention := by rw [frame]
  have tx : (s.dropContext i).tx = s.tx := by rw [frame]
  have waits : ∀ m, m ≠ .event → (m ∈ (s.dropContext i).waiting ↔ m ∈ s.waiting) := fun m hm => by
    have := congrArg (m ∈ ·) dropped
    simpa [List.mem_filter, hm] using this
  have purged : ((s.dropContext i).purged i).waiting = _ := State.purged_waiting
    (fun octets e => by rw [waits _ (by simp)]; exact hout _ octets (tx ▸ e))
    (fun h octets e => by rw [waits _ (by simp)]; exact hout _ octets (tx ▸ e))
    (by rw [waits _ (by simp), attention]; exact hheld)
  obtain ⟨-, -, snapshot⟩ := State.dropContext_records s i
  have general : ∀ l : List GenId, (l.map SlotName.general).filter (fun m => m != .event) = l.map SlotName.general :=
    fun l => List.filter_eq_self.mpr fun m hm => by
      obtain ⟨h, -, rfl⟩ := List.mem_map.mp hm
      rfl
  rw [State.detached_replies, List.filter_append, general, purged, snapshot, List.filter_comm, dropped, List.filter_filter]
  congr 2
  funext m
  cases m != .event <;> simp

/-- Settles O15: the station is cleared, the transmit queue loses its records, and their answers come in order before
the DONE. -/
theorem detachStationAnswersInOrder : Obligations.DetachStationAnswersInOrder := by
  intro s g n h
  refine ⟨fun hn => ?_, fun i hn => ⟨fun hs => ?_, fun hs hp honce => ?_⟩⟩
  · have none : stationOf n = none := dif_neg hn
    rw [exec_detachStation h, State.detachStation, none]
    rfl
  · subst hn
    have detached : s.hunting.attached i = false := by simpa [State.attached, State.station] using hs
    rw [exec_detachStation h, State.detachStation, stationOf_number]
    simp only [detached, Bool.not_false, if_true]
    rfl
  subst hn
  have once : (detachedSlots s i).Nodup := (List.nodup_append.mp honce).1
  have run : exec (.detachStation (i.val + 1)) s = .next (s.hunting.detached i g) := by
    rw [exec_detachStation h, State.detachStation_attached (s := s.hunting) hs hp once]
  have frame := State.detached_frame s.hunting i g
  obtain ⟨done, answers, others⟩ := State.detached_general (s := s.hunting) (i := i) (g := g) honce
  obtain ⟨tx, txPurged⟩ := State.detached_tx s.hunting i g
  obtain ⟨-, -, snapshot⟩ := State.dropContext_records s.hunting i
  have attention : (s.hunting.dropContext i).attention = s.attention := by rw [State.dropContext_frame]; rfl
  have answered : ∀ k h, (k, h) ∈ s.detachedAnswers i → (s.hunting.detached i g).general[h] = detachedSlot i k := answers
  obtain ⟨rx, enable, staging, nextVersion, pending, resetInput, holdInput⟩ :
      (s.hunting.detached i g).rx = .hunting ∧ (s.hunting.detached i g).enable = s.enable
        ∧ (s.hunting.detached i g).staging = s.staging ∧ (s.hunting.detached i g).nextVersion = s.nextVersion
        ∧ (s.hunting.detached i g).pending = s.pending ∧ (s.hunting.detached i g).resetInput = s.resetInput
        ∧ (s.hunting.detached i g).holdInput = s.holdInput := by
    rw [frame]
    exact ⟨rfl, rfl, rfl, rfl, rfl, rfl, rfl⟩
  refine ⟨_, run, ?_, ?_, ?_, done, fun h hh => ?_, fun h hh => answered _ h ?_, fun h hh => answered _ h ?_,
    fun h hh => answered _ h ?_, fun q hq => answered _ _ ?_, others, ?_, ?_, fun m octets htx hm => ?_,
    fun ha hsnap => ?_, fun hout hheld => State.detached_waiting (s := s.hunting) hout hheld, fun x hx hxi => ?_,
    fun hx => ?_, fun j hj => ⟨?_, ?_⟩, rx, enable, staging, nextVersion, pending, resetInput, holdInput, fun e he => ?_⟩
  · rw [frame]
    simp [State.station]
  · rw [frame, getElem_set_fin, if_pos rfl]
  · exact ⟨_, State.detached_replies _ _ _⟩
  · rw [← State.detachedAnswers_slots] at hh
    obtain ⟨⟨k, h⟩, hk, rfl⟩ := List.mem_map.mp hh
    exact ⟨k, answered k h hk⟩
  · simp [State.detachedAnswers, Station.deferred, hh]
  · simp [State.detachedAnswers, Station.deferred, hh]
  · simp [State.detachedAnswers, hh]
  · simp only [State.detachedAnswers, List.mem_append]
    exact .inr (List.mem_map_of_mem hq)
  · rw [frame]
    rfl
  · exact (State.dropContext_formDropped s.hunting i).of_hunting (by rw [frame]) (by rw [frame]) (by rw [frame])
  · rw [txPurged]
    exact State.purged_cut (tx.trans htx) (by rw [attention, snapshot]; exact hm)
  · rw [txPurged, State.purged_tx (by rw [tx]; exact ha) (by rw [snapshot, tx]; exact hsnap), tx]
    rfl
  · rw [frame]
    simp [Loop.leftBy, Loop.visited, hx, hxi]
  · rw [frame]
    have elsewhere : s.hunting.loop.visit.any (fun x => x.station == i) = false := by
      change s.loop.visit.any (fun x => x.station == i) = false
      cases hv : s.loop.visit with
      | none => rfl
      | some x => simpa using hx x hv
    simp only [Loop.leftBy, elsewhere, Bool.false_eq_true, if_false]
    rfl
  · rw [frame]
    exact State.station_setStation_ne s _ hj
  · rw [frame, getElem_set_fin, if_neg hj]
    rfl
  · rw [frame]
    change (s.hunting.dropContext i).raw.has e = true
    rcases State.dropContext_raw s.hunting i with e' | e' <;> rw [e']
    · exact he
    · exact RawEvents.raise_has _ _ he

end Sys2Proof.Machine

/-! PROOFS. The seat of an act: the station's state, lock and type-ahead queue, and the row records the act holds, free or
in its form; what each operation of an act does to it (R24, R25, R31, R37). -/

namespace Sys2Proof.Machine

/-- What the laws of the station states (R24, R25) and of the row pool (R31) read of an act. -/
structure Seat where
  state : StationState
  lock : Lock
  typeAhead : List Byte
  free : Nat
  rows : Nat

def Work.seat (w : Work) : Seat :=
  { state := w.st.state, lock := w.st.lock, typeAhead := w.st.typeAhead, free := w.freeRows, rows := w.c.rows.length }

/-! ### The operations of an act -/

section
variable (w : Work)

@[simp] theorem Work.dirty_seat (d : Dirty) : (w.dirty d).seat = w.seat := rfl

@[simp] theorem Work.noteIndicator_seat (new : Work) : (w.noteIndicator new).seat = new.seat := by
  unfold Work.noteIndicator; split <;> rfl

@[simp] theorem Work.setLock_seat (x : StationState) (l : Lock) :
    (w.setLock x l).seat = { w.seat with state := x, lock := l } := Work.noteIndicator_seat _ _

@[simp] theorem Work.setAdjusted_seat (b : Bool) : (w.setAdjusted b).seat = w.seat := Work.noteIndicator_seat _ _

@[simp] theorem Work.setInsertMode_seat (b : Bool) : (w.setInsertMode b).seat = w.seat := Work.noteIndicator_seat _ _

@[simp] theorem Work.setEditing_seat (b : Bool) : (w.setEditing b).seat = w.seat := rfl

@[simp] theorem Work.alarm_seat : w.alarm.seat = w.seat := rfl

@[simp] theorem Work.markCursor_seat : w.markCursor.seat = w.seat := rfl

@[simp] theorem Work.setTypeAhead_seat (l : List Byte) : (w.setTypeAhead l).seat = { w.seat with typeAhead := l } := rfl

@[simp] theorem Work.moveCursor_seat (q : Pos) : (w.moveCursor q).seat = w.seat := by
  unfold Work.moveCursor; split <;> rfl

@[simp] theorem Work.setFirst_seat (f : Nat) : (w.setFirst f).seat = w.seat := by
  unfold Work.setFirst; split <;> rfl

@[simp] theorem Work.operatorError_seat (code : ErrorCode) :
    (w.operatorError code).seat = { w.seat with lock := .operatorError code } := Work.setLock_seat _ _ _

@[simp] theorem Work.latch_seat (key : Byte) :
    (w.latch key).seat = { w.seat with state := .attention, lock := .system } := Work.setLock_seat _ _ _

@[simp] theorem Work.dirtyInst_seat (r : InstRef) : (w.dirtyInst r).seat = w.seat := by
  unfold Work.dirtyInst; repeat' split
  all_goals rfl

@[simp] theorem Work.putInst_seat (r : InstRef) (x : FieldInst) : (w.putInst r x).seat = w.seat := by
  have written : ∀ f, Work.seat { w with c := w.c.modInst r f } = w.seat := fun f => by
    simp only [Work.seat, (SameFrame.modInst w.c r f).rows]
  unfold Work.putInst
  split
  · dsimp only; split <;> simp [written]
  · rfl

@[simp] theorem Work.dirtyBandAt_seat (p : Nat) : (w.dirtyBandAt p).seat = w.seat := by
  unfold Work.dirtyBandAt; split <;> rfl

@[simp] theorem Work.showRow_seat (r : InstRef) : (w.showRow r).seat = w.seat := by
  unfold Work.showRow
  repeat' split
  all_goals simp

/-- R31: a row record taken from the pool joins the form. -/
theorem Work.insertTakenRow_seat (p : Nat) (x : RowRec) :
    (w.takeRow.insertRowAt p x).seat = { w.seat with free := w.seat.free - 1, rows := w.seat.rows + 1 } := by
  simp only [Work.seat, Work.takeRow, Work.insertRowAt, Seat.mk.injEq, true_and, List.length_append, List.length_take,
    List.length_cons, List.length_drop]
  omega

/-- R31: a row record that the form holds goes back to the pool. -/
theorem Work.returnRemovedRow_seat {p : Nat} (hlo : 1 ≤ p) (hhi : p ≤ w.c.rows.length) :
    ((w.removeRowAt p).returnRow).seat = { w.seat with free := w.seat.free + 1, rows := w.seat.rows - 1 } := by
  simp only [Work.seat, Work.removeRowAt, Work.returnRow, Seat.mk.injEq, true_and, List.length_append, List.length_take,
    List.length_drop]
  omega

/-! ### The Tally Unit -/

@[simp] theorem Work.compute_seat (r : InstRef) : (w.compute r).seat = w.seat := by
  unfold Work.compute; split <;> simp

@[simp] theorem Work.computeProductsOf_seat (l : List (Nat × Nat)) : (w.computeProductsOf l).1.seat = w.seat :=
  foldl_measure (g := fun p : Work × List Nat => p.1.seat) (fun p _ => Work.compute_seat p.1 _) _ (w, _)

@[simp] theorem Work.computeSumsOf_seat (ids : List Nat) : (w.computeSumsOf ids).seat = w.seat :=
  foldl_measure (g := Work.seat) (fun w _ => Work.compute_seat w _) _ w

@[simp] theorem Work.computeAllSums_seat : w.computeAllSums.seat = w.seat :=
  foldl_measure (g := Work.seat) (fun w _ => Work.compute_seat w _) _ w

@[simp] theorem Work.computeRow_seat (p : Nat) : (w.computeRow p).seat = w.seat :=
  foldl_measure (g := Work.seat) (fun w _ => Work.compute_seat w _) _ w

@[simp] theorem Work.tally_seat (l : List (Nat × Nat)) : (w.tally l).seat = w.seat := by simp [Work.tally]

@[simp] theorem Work.tallyAll_seat : w.tallyAll.seat = w.seat := by
  unfold Work.tallyAll
  rw [Work.computeAllSums_seat]
  exact foldl_measure (g := Work.seat) (fun w _ => Work.computeRow_seat w _) _ w

/-! ### The field exit (R63) -/

theorem Work.exitField_passed_seat {w' : Work} {negate : Bool} {l : List (Nat × Nat)}
    (h : w.exitField negate = .passed w' l) : w'.seat = w.seat := by
  unfold Work.exitField at h
  split at h
  · cases h; rfl
  split at h
  · cases h; rfl
  split at h
  · cases h
  · cases h
    split <;> simp

theorem Work.exitField_failed_seat {w' : Work} {negate : Bool} (h : w.exitField negate = .failed w') :
    ∃ code, w'.seat = { w.seat with lock := .operatorError code } := by
  unfold Work.exitField at h
  split at h
  · cases h
  split at h
  · cases h
  split at h
  · cases h
    exact ⟨_, by rw [Work.operatorError_seat, Work.moveCursor_seat]⟩
  · cases h

end

/-! ### Keystrokes (R49) -/

/-- What a key that latches no attention does to the seat: it may set an operator error, and it moves row records between
the pool and the form at most. -/
structure Seat.Keyed (a b : Seat) : Prop where
  state : b.state = a.state
  lock : b.lock = a.lock ∨ ∃ code, b.lock = .operatorError code
  typeAhead : b.typeAhead = a.typeAhead
  pool : b.free + b.rows = a.free + a.rows

namespace Seat.Keyed

variable {a b c : Seat}

theorem refl (a : Seat) : a.Keyed a := ⟨rfl, .inl rfl, rfl, rfl⟩

theorem of_eq (h : b = a) : a.Keyed b := h ▸ refl b

theorem error (a : Seat) (code : ErrorCode) : a.Keyed { a with lock := .operatorError code } :=
  ⟨rfl, .inr ⟨code, rfl⟩, rfl, rfl⟩

theorem trans (h : a.Keyed b) (k : b.Keyed c) : a.Keyed c :=
  ⟨k.state.trans h.state, k.lock.elim (fun e => e ▸ h.lock) .inr, k.typeAhead.trans h.typeAhead, k.pool.trans h.pool⟩

end Seat.Keyed

section
variable (w : Work)

theorem Work.operatorError_keyed (code : ErrorCode) : w.seat.Keyed (w.operatorError code).seat := by
  rw [Work.operatorError_seat]
  exact .error _ _

theorem Work.exitThenMove_keyed (b n : Bool) (l : List (Nat × Nat)) (f : Nat) (q : Pos) :
    w.seat.Keyed (w.exitThenMove b n l f q).seat := by
  unfold Work.exitThenMove
  split
  · rename_i w' h
    have failed : ∃ code, w'.seat = { w.seat with lock := .operatorError code } := by
      split at h
      · exact w.exitField_failed_seat h
      · cases h
    obtain ⟨code, hw⟩ := failed
    rw [Work.tally_seat, hw]
    exact .error _ _
  · rename_i w' changed h
    have passed : w'.seat = w.seat := by
      split at h
      · exact w.exitField_passed_seat h
      · cases h; rfl
    exact .of_eq (by simp [passed])

theorem Work.moveAsTab_keyed (b : Bool) (l : List (Nat × Nat)) : w.seat.Keyed (w.moveAsTab b l).seat :=
  w.exitThenMove_keyed _ _ _ _ _

@[simp] theorem Work.editText_seat (u : Under) (t : Text) : (w.editText u t).seat = w.seat := by
  simp [Work.editText]

theorem Work.advance_keyed (d : FieldDef) : w.seat.Keyed (w.advance d).seat := by
  unfold Work.advance
  split
  · exact .of_eq (by simp)
  split
  · exact w.moveAsTab_keyed _ _
  · exact w.exitThenMove_keyed _ _ _ _ _

theorem Work.dataKey_keyed (ch : Byte) : w.seat.Keyed (w.dataKey ch).seat := by
  unfold Work.dataKey
  split
  · exact w.operatorError_keyed _
  · rename_i u _
    split
    · exact w.operatorError_keyed _
    split
    · exact w.operatorError_keyed _
    split
    · exact w.operatorError_keyed _
    · exact (Seat.Keyed.of_eq (w.editText_seat u _)).trans (Work.advance_keyed _ _)

theorem Work.deleteKey_keyed : w.seat.Keyed w.deleteKey.seat := by
  unfold Work.deleteKey
  split
  · exact w.operatorError_keyed _
  · exact .of_eq (w.editText_seat _ _)

theorem Work.eraseEofKey_keyed : w.seat.Keyed w.eraseEofKey.seat := by
  unfold Work.eraseEofKey
  split
  · exact w.operatorError_keyed _
  · exact .of_eq (w.editText_seat _ _)

@[simp] theorem Work.eraseInputKey_seat : w.eraseInputKey.seat = w.seat := by
  have erased : ((allRefs w.v w.c).foldl Work.eraseInst (w, [])).1.seat = w.seat :=
    foldl_measure (g := fun p : Work × List (Nat × Nat) => p.1.seat) (f := Work.eraseInst) (fun p r => by
      unfold Work.eraseInst
      repeat' split
      all_goals simp) _ _
  simp [Work.eraseInputKey, erased]

theorem Work.fieldExitKey_keyed : w.seat.Keyed w.fieldExitKey.seat := by
  unfold Work.fieldExitKey
  split
  · exact w.operatorError_keyed _
  · exact (Seat.Keyed.of_eq (w.editText_seat _ _)).trans (Work.moveAsTab_keyed _ _ _)

theorem Work.fieldMinusKey_keyed : w.seat.Keyed w.fieldMinusKey.seat := by
  unfold Work.fieldMinusKey
  split
  · exact w.operatorError_keyed _
  split
  · exact (Seat.Keyed.of_eq (w.editText_seat _ _)).trans (Work.moveAsTab_keyed _ _ _)
  · exact w.operatorError_keyed _

theorem Work.dupKey_keyed : w.seat.Keyed w.dupKey.seat := by
  unfold Work.dupKey
  split
  · exact .of_eq rfl
  · rename_i u _
    split
    · exact .of_eq rfl
    · rename_i src _
      extract_lets value _ copied
      have hc : copied.seat = w.seat := by simp [copied]
      exact (Seat.Keyed.of_eq hc).trans (Work.moveAsTab_keyed _ _ _)

theorem Work.rollTo_keyed (f : Nat) : w.seat.Keyed (w.rollTo f).seat := by
  unfold Work.rollTo
  split
  · exact .refl _
  · exact w.exitThenMove_keyed _ _ _ _ _

/-- R88: the operator's row is one of the pool's. -/
theorem Work.insertOperatorRow_keyed (h : w.freeRows ≠ 0) (l : List (Nat × Nat)) :
    w.seat.Keyed (w.insertOperatorRow l).seat := by
  have free : 1 ≤ w.seat.free := Nat.one_le_iff_ne_zero.mpr h
  simp only [Work.insertOperatorRow, Work.markCursor_seat, Work.dirty_seat, Work.computeAllSums_seat,
    Work.computeProductsOf_seat, Work.computeRow_seat, Work.moveCursor_seat, Work.insertTakenRow_seat]
  exact ⟨rfl, .inl rfl, rfl, by dsimp only; omega⟩

theorem Work.rowInsertKey_keyed : w.seat.Keyed w.rowInsertKey.seat := by
  unfold Work.rowInsertKey
  split
  · exact w.operatorError_keyed _
  split
  · exact w.operatorError_keyed _
  split
  · exact w.operatorError_keyed _
  rename_i hfree
  split
  · rename_i h
    obtain ⟨code, hw⟩ := w.exitField_failed_seat h
    rw [hw]
    exact .error _ _
  · rename_i w' changed h
    have hw := w.exitField_passed_seat h
    have free : w'.freeRows ≠ 0 := by rwa [show w'.freeRows = w.freeRows from congrArg Seat.free hw]
    exact (Seat.Keyed.of_eq hw).trans (w'.insertOperatorRow_keyed free changed)

/-- R90: the row that the operator deletes goes back to the pool. -/
theorem Work.deleteOperatorRow_keyed {p : Nat} (hlo : 1 ≤ p) (hhi : p ≤ w.c.rows.length) (x : RowRec) :
    w.seat.Keyed (w.deleteOperatorRow p x).seat := by
  unfold Work.deleteOperatorRow
  extract_lets inRow _ tagged removed left _ clamped
  have ht : removed.seat = { w.seat with free := w.seat.free + 1, rows := w.seat.rows - 1 } :=
    Work.returnRemovedRow_seat tagged hlo hhi
  have hl : left.seat = removed.seat := by simp only [left]; split <;> rfl
  have hc : clamped.seat = left.seat := rfl
  have rows : 1 ≤ w.seat.rows := hlo.trans hhi
  rw [Work.dirty_seat, Work.computeAllSums_seat, hc, hl, ht]
  exact ⟨rfl, .inl rfl, rfl, by dsimp only; omega⟩

theorem Work.rowDeleteKey_keyed : w.seat.Keyed w.rowDeleteKey.seat := by
  unfold Work.rowDeleteKey
  split
  · exact w.operatorError_keyed _
  split
  · exact w.operatorError_keyed _
  rename_i p _
  split
  · exact w.operatorError_keyed _
  rename_i x hx
  split
  · exact w.operatorError_keyed _
  · obtain ⟨hlo, hx⟩ := Context.row?_eq_some.mp hx
    exact w.deleteOperatorRow_keyed hlo (by have := (List.getElem?_eq_some_iff.mp hx).1; omega) x

/-- R135: ENTER and an F key latch an attention, unless the field exit or a mandatory field stops them. -/
theorem Work.reportKey_seat (key : Byte) : w.seat.Keyed (w.reportKey key).seat
    ∨ (w.reportKey key).seat = { w.seat with state := .attention, lock := .system } := by
  unfold Work.reportKey
  split
  · rename_i h
    obtain ⟨code, hw⟩ := w.exitField_failed_seat h
    rw [hw]
    exact .inl (.error _ _)
  · rename_i w' changed h
    have hw := w.exitField_passed_seat h
    dsimp only
    split
    · refine .inl ?_
      simp only [Work.operatorError_seat, Work.moveCursor_seat, Work.showRow_seat, Work.tally_seat, hw]
      exact .error _ _
    · exact .inr (by simp [hw])

theorem Work.applyDecoded_seat (key : Key) : w.seat.Keyed (w.applyDecoded key).seat
    ∨ (w.applyDecoded key).seat = { w.seat with state := .attention, lock := .system } := by
  cases key with
  | attention code =>
    change w.seat.Keyed (if code = clearKey then w.latch code else w.reportKey code).seat ∨ _
    unfold Work.applyDecoded
    dsimp only
    split
    · exact .inr (w.latch_seat code)
    · exact w.reportKey_seat code
  | data ch => exact .inl (w.dataKey_keyed ch)
  | rollUp => exact .inl (w.rollTo_keyed _)
  | rollDown => exact .inl (w.rollTo_keyed _)
  | rowInsert => exact .inl w.rowInsertKey_keyed
  | rowDelete => exact .inl w.rowDeleteKey_keyed
  | delete => exact .inl w.deleteKey_keyed
  | eraseEof => exact .inl w.eraseEofKey_keyed
  | eraseInput => exact .inl (.of_eq w.eraseInputKey_seat)
  | fieldExit => exact .inl w.fieldExitKey_keyed
  | fieldMinus => exact .inl w.fieldMinusKey_keyed
  | dup => exact .inl w.dupKey_keyed
  | insert => exact .inl (.of_eq (w.setInsertMode_seat _))
  | reset => exact .inl (.of_eq (w.setInsertMode_seat _))
  | tab => exact .inl (w.moveAsTab_keyed _ _)
  | backtab => exact .inl (w.exitThenMove_keyed _ _ _ _ _)
  | home => exact .inl (w.exitThenMove_keyed _ _ _ _ _)
  | newline => exact .inl (w.exitThenMove_keyed _ _ _ _ _)
  | up => exact .inl (w.exitThenMove_keyed _ _ _ _ _)
  | down => exact .inl (w.exitThenMove_keyed _ _ _ _ _)
  | left => exact .inl (w.exitThenMove_keyed _ _ _ _ _)
  | right => exact .inl (w.exitThenMove_keyed _ _ _ _ _)

/-- A keystroke edits, or latches an attention. -/
theorem Work.applyKey_seat (k : Byte) : w.seat.Keyed (w.applyKey k).seat
    ∨ (w.applyKey k).seat = { w.seat with state := .attention, lock := .system } := by
  unfold Work.applyKey
  split
  · exact .inl (.refl _)
  · rw [← w.setAdjusted_seat false]
    exact Work.applyDecoded_seat _ _

end

/-! ### The keyboard opened (R27, R37) -/

/-- What the opening of the keyboard makes of a seat: ENTRY with an empty type-ahead queue or under SNAPSHOT, or ATTENTION
latched by a drained keystroke. -/
structure Seat.Opened (a b : Seat) : Prop where
  place : b.state = .entry ∧ b.lock = .snapshot
    ∨ b.state = .entry ∧ (b.lock = .none ∨ ∃ code, b.lock = .operatorError code) ∧ b.typeAhead = []
    ∨ b.state = .attention ∧ b.lock = .system
  pool : b.free + b.rows = a.free + a.rows

theorem Work.drain_opened (l : List Byte) {w : Work} (hs : w.st.state = .entry) (hl : w.st.lock = .none) :
    w.seat.Opened (w.drain l).seat := by
  induction l generalizing w with
  | nil => exact ⟨.inr (.inl ⟨hs, .inl hl, rfl⟩), rfl⟩
  | cons k rest ih =>
    have applied := (w.setTypeAhead rest).applyKey_seat k
    unfold Work.drain
    dsimp only
    generalize (w.setTypeAhead rest).applyKey k = w' at applied
    rcases applied with key | latched
    · have state : w'.st.state = .entry := key.state.trans hs
      have pool : w'.seat.free + w'.seat.rows = w.seat.free + w.seat.rows := key.pool
      split
      · rename_i lock
        obtain ⟨place, kept⟩ := ih state lock
        exact ⟨place, kept.trans pool⟩
      · rename_i code lock
        exact ⟨.inr (.inl ⟨state, .inr ⟨code, lock⟩, rfl⟩), pool⟩
      all_goals
        rename_i lock
        rcases key.lock with e | ⟨code, e⟩
        · cases lock.symm.trans (e.trans hl)
        · cases lock.symm.trans e
    · have state : w'.st.state = .attention := congrArg Seat.state latched
      have lock : w'.st.lock = .system := congrArg Seat.lock latched
      rw [lock]
      exact ⟨.inr (.inr ⟨state, lock⟩), by rw [latched]; rfl⟩

theorem Work.openKeyboard_opened (w : Work) : w.seat.Opened w.openKeyboard.seat := by
  unfold Work.openKeyboard
  split
  · rw [Work.setLock_seat]
    exact ⟨.inl ⟨rfl, rfl⟩, rfl⟩
  have hseat := w.setLock_seat .entry .none
  have state : (w.setLock .entry .none).st.state = .entry := congrArg Seat.state hseat
  have lock : (w.setLock .entry .none).st.lock = .none := congrArg Seat.lock hseat
  have pool : (w.setLock .entry .none).seat.free + (w.setLock .entry .none).seat.rows = w.seat.free + w.seat.rows := by
    rw [hseat]
  unfold Work.dealWithTypeAhead
  split
  · rw [Work.operatorError_seat]
    exact ⟨.inr (.inl ⟨state, .inr ⟨_, rfl⟩, rfl⟩), pool⟩
  · obtain ⟨place, kept⟩ := Work.drain_opened (w.setLock .entry .none).st.typeAhead state lock
    exact ⟨place, kept.trans pool⟩

theorem Work.resetError_opened (w : Work) : w.seat.Opened w.resetError.seat := by
  rw [← w.setAdjusted_seat false]
  exact Work.openKeyboard_opened _

/-! ### FILL (R114 to R124) -/

/-- What the entries of a FILL do to the seat: they move row records between the pool and the form. -/
structure Seat.Filled (a b : Seat) : Prop where
  state : b.state = a.state
  lock : b.lock = a.lock
  typeAhead : b.typeAhead = a.typeAhead
  pool : b.free + b.rows = a.free + a.rows

namespace Seat.Filled

variable {a b c : Seat}

theorem of_eq (h : b = a) : a.Filled b := h ▸ ⟨rfl, rfl, rfl, rfl⟩

theorem trans (h : a.Filled b) (k : b.Filled c) : a.Filled c :=
  ⟨k.state.trans h.state, k.lock.trans h.lock, k.typeAhead.trans h.typeAhead, k.pool.trans h.pool⟩

end Seat.Filled

section
variable {w w' : Work}

@[simp] theorem Work.abandonEdit_seat (w : Work) (r : InstRef) : (w.abandonEdit r).seat = w.seat := by
  unfold Work.abandonEdit
  dsimp only
  repeat' split
  all_goals simp

@[simp] theorem Work.leaveInst_seat (w : Work) (b : Option InstRef) : (w.leaveInst b).seat = w.seat := by
  unfold Work.leaveInst
  repeat' split
  all_goals simp

theorem Work.setInst_seat (w : Work) (r : InstRef) (x : FieldInst) (t : Text × Option Int) :
    (w.setInst r x t).seat = w.seat := by
  unfold Work.setInst
  dsimp only
  repeat' split
  all_goals simp

theorem Work.fillInsert_filled {p : Nat} {x : RowEntry} (h : w.fillInsert p x = .ok w') : w.seat.Filled w'.seat := by
  unfold Work.fillInsert at h
  repeat' split at h
  all_goals cases h
  rename_i hfree
  have free : 1 ≤ w.seat.free := Nat.one_le_iff_ne_zero.mpr hfree
  simp only [Work.leaveInst_seat, Work.computeAllSums_seat, Work.computeRow_seat, Work.dirtyBandAt_seat,
    Work.insertTakenRow_seat]
  exact ⟨rfl, rfl, rfl, by dsimp only; omega⟩

theorem Work.fillDelete_filled {p : Nat} (h : w.fillDelete p = .ok w') : w.seat.Filled w'.seat := by
  unfold Work.fillDelete at h
  split at h
  · cases h
  rename_i hp
  simp only [Bool.or_eq_true, decide_eq_true_eq, not_or, Nat.not_lt] at hp
  obtain ⟨hlo, hhi⟩ := hp
  extract_lets before shown removed _ clamped marked summed at h
  have hr : removed.seat = { w.seat with free := w.seat.free + 1, rows := w.seat.rows - 1 } :=
    w.returnRemovedRow_seat hlo hhi
  have hm : marked.seat = removed.seat := by simp only [marked]; split <;> rfl
  have hs : summed.seat = removed.seat := (Work.computeAllSums_seat marked).trans hm
  have filled : w.seat.Filled summed.seat := by
    have rows : p ≤ w.seat.rows := hhi
    rw [hs, hr]
    exact ⟨rfl, rfl, rfl, by dsimp only; omega⟩
  clear_value before summed
  split at h
  · cases h
    exact filled
  split at h <;> cases h
  · exact filled
  · exact filled.trans (.of_eq (Work.leaveInst_seat _ _))

theorem Work.fillEntry_filled {e : FillEntry} (h : w.fillEntry e = .ok w') : w.seat.Filled w'.seat := by
  cases e with
  | set ref t =>
    simp only [Work.fillEntry, Work.fillSet] at h
    repeat' split at h
    all_goals cases h
    exact .of_eq (Work.setInst_seat _ _ _ _)
  | appendRow row => exact Work.fillInsert_filled h
  | insertRow p row => exact Work.fillInsert_filled h
  | deleteRow p => exact Work.fillDelete_filled h
  | tagRow p tag =>
    simp only [Work.fillEntry, Work.fillTag] at h
    repeat' split at h
    all_goals cases h
    exact .of_eq (by simp [Work.seat, modifyNth])
  | cursor ref =>
    simp only [Work.fillEntry, Work.fillCursor] at h
    split at h <;> cases h
    exact .of_eq (by simp)

theorem Work.fillEntries_filled (l : List FillEntry) (w : Work) (k : Nat) :
    w.seat.Filled (w.fillEntries k l).1.seat := by
  induction l generalizing w k with
  | nil => exact .of_eq rfl
  | cons e rest ih =>
    unfold Work.fillEntries
    split
    · exact .of_eq rfl
    · rename_i h
      exact (Work.fillEntry_filled h).trans (ih _ _)

/-- R124, R127: an UNLOCK opens the keyboard from HELD and from ATTENTION, and leaves the seat as it is elsewhere. -/
theorem Work.unlock_seat (w : Work) :
    w.unlock.seat = w.seat ∨ (w.st.state = .held ∨ w.st.state = .attention) ∧ w.seat.Opened w.unlock.seat := by
  unfold Work.unlock
  split
  · rename_i h; exact .inr ⟨.inl h, w.openKeyboard_opened⟩
  · rename_i h; exact .inr ⟨.inr h, w.openKeyboard_opened⟩
  all_goals exact .inl rfl

/-- A whole FILL fills the form, and with the UNLOCK option may open the keyboard. -/
theorem Work.fill_seat (w : Work) (l : List FillEntry) (u m : Bool) : w.seat.Filled (w.fill l u m).1.seat
    ∨ (w.st.state = .held ∨ w.st.state = .attention) ∧ w.seat.Opened (w.fill l u m).1.seat := by
  have entries := Work.fillEntries_filled l w 1
  unfold Work.fill
  split
  · rename_i e
    rw [e] at entries
    exact .inl entries
  · rename_i w' e
    rw [e] at entries
    unfold Work.fillOptions
    extract_lets cleared
    have hc : cleared.seat = w'.seat := by
      simp only [cleared]
      split
      · simp [Work.seat, clearModifiedIn]
      · rfl
    have filled : w.seat.Filled cleared.seat := hc ▸ entries
    clear_value cleared
    split
    · rcases cleared.unlock_seat with same | ⟨held, place, pool⟩
      · exact .inl (same ▸ filled)
      · exact .inr ⟨by rwa [← show cleared.st.state = w.st.state from filled.state], place, pool.trans filled.pool⟩
    · exact .inl filled

end

end Sys2Proof.Machine

/-! PROOFS. The walk over the commands for a law of the stations: a law that outlasts the acts by which a station record
changes, from the joining of a record to a reset, outlasts every step. -/

namespace Sys2Proof.Machine

/-! ### Changes that no law of the stations sees -/

/-- A station record changed in its paint state, its host note and the content of its loop record at most. -/
structure Station.Alike (st st' : Station) : Prop where
  core : st' = { st with paint := st'.paint, note := st'.note, link := st'.link }
  link : st'.link = none ↔ st.link = none

/-- No station record has changed further than that, and the row pool stands as it did. -/
structure Undisturbed (s t : State) : Prop where
  freeRows : t.freeRows = s.freeRows
  stations : ∀ j, (s.station j).Alike (t.station j)

namespace Station.Alike

variable {a b c : Station}

theorem refl (a : Station) : a.Alike a := ⟨rfl, Iff.rfl⟩

theorem trans (h : a.Alike b) (k : b.Alike c) : a.Alike c :=
  ⟨by rw [k.core, h.core], k.link.trans h.link⟩

theorem paint (a : Station) (p : Paint) : a.Alike { a with paint := p } := ⟨rfl, Iff.rfl⟩

end Station.Alike

namespace Undisturbed

variable {s t u : State}

theorem refl (s : State) : Undisturbed s s := ⟨rfl, fun _ => .refl _⟩

theorem trans (h : Undisturbed s t) (k : Undisturbed t u) : Undisturbed s u :=
  ⟨k.freeRows.trans h.freeRows, fun j => (h.stations j).trans (k.stations j)⟩

theorem of_stations (hs : t.stations = s.stations) (hf : t.freeRows = s.freeRows) : Undisturbed s t :=
  ⟨hf, fun j => State.station_eq_of_stations hs j ▸ .refl _⟩

theorem foldl {α : Type} {f : State → α → State} (hf : ∀ s x, Undisturbed s (f s x)) (l : List α) (s : State) :
    Undisturbed s (l.foldl f s) :=
  foldl_keeps (P := Undisturbed s) (fun b a hb => hb.trans (hf b a)) l (.refl s)

end Undisturbed

section
variable (s : State) {i : StationId} {g : GenId}

theorem State.setStation_undisturbed {st : Station} (h : (s.station i).Alike st) : Undisturbed s (s.setStation i st) := by
  refine ⟨rfl, fun j => ?_⟩
  rw [State.station_setStation]
  split
  · rename_i hj; exact hj ▸ h
  · exact .refl _

theorem State.modPaint_undisturbed (f : Paint → Paint) : Undisturbed s (s.modPaint i f) :=
  s.setStation_undisturbed (.paint _ _)

theorem State.modLink_undisturbed (f : LoopRecord → LoopRecord) : Undisturbed s (s.modLink i f) :=
  s.setStation_undisturbed ⟨rfl, by simp⟩

theorem State.setFull_undisturbed (m : Marker → Marker) : Undisturbed s (s.setFull i m) :=
  s.setStation_undisturbed (.paint _ _)

theorem State.place_undisturbed (n : Nat) (r : Inbound) : Undisturbed s (s.place g n r) := .of_stations rfl rfl

theorem State.refuseControl_undisturbed (k : Nat) (e : Reason) : Undisturbed s (s.refuseControl g k e) :=
  s.place_undisturbed _ _

theorem State.refuseRecord_undisturbed (k : Nat) (e : Reason) (a b : Option Nat) :
    Undisturbed s (s.refuseRecord i g k e a b) := s.place_undisturbed _ _

theorem State.raise_undisturbed (e : Event) : Undisturbed s (s.raise e) := .of_stations (by simp) (by simp)

theorem State.updateEvents_undisturbed (r : RawEvents) (m : Mask) : Undisturbed s (s.updateEvents r m) := by
  rw [State.updateEvents_eq]
  exact .of_stations rfl rfl

theorem State.withLoop_undisturbed (l : Loop) : Undisturbed s { s with loop := l } := .of_stations rfl rfl

theorem State.resync_undisturbed : Undisturbed s (s.resync i) :=
  (s.modLink_undisturbed _).trans (State.setFull_undisturbed _ _)

theorem State.comeOnline_undisturbed : Undisturbed s (s.comeOnline i) :=
  ((s.raise_undisturbed _).trans (State.modLink_undisturbed _ _)).trans (State.setFull_undisturbed _ _)

theorem State.cut_undisturbed : Undisturbed s s.cut := by
  unfold State.cut
  split
  · exact .of_stations rfl rfl
  all_goals exact .refl s

theorem State.removeRecord_undisturbed (n : SlotName) : Undisturbed s (s.removeRecord n) := by
  unfold State.removeRecord
  split
  · exact s.cut_undisturbed
  · exact .of_stations rfl rfl

/-! ### The loop -/

theorem State.startLoop_undisturbed (a b c : Nat) : Undisturbed s (s.startLoop a b c) := by
  unfold State.startLoop
  extract_lets started
  have h : Undisturbed s started := by
    have at_station : ∀ j, started.station j = { s.station j with link := (s.station j).link.map LoopRecord.started } :=
      fun j => getElem_mapVec _ s.stations j
    exact ⟨rfl, fun j => by rw [at_station]; exact ⟨rfl, by simp⟩⟩
  split
  · exact h.trans (State.raise_undisturbed _ _)
  · exact h

theorem State.loopStart_undisturbed (a b c : Nat) : Undisturbed s (s.loopStart a b c g) := by
  unfold State.loopStart
  split
  · exact s.refuseControl_undisturbed _ _
  split
  · exact s.refuseControl_undisturbed _ _
  · exact (s.startLoop_undisturbed a b c).trans (State.place_undisturbed _ _ _)

theorem State.cutVisit_undisturbed : Undisturbed s s.cutVisit := by
  unfold State.cutVisit
  split
  · split
    · exact s.resync_undisturbed
    all_goals exact .refl s
  · exact .refl s

theorem State.holdDeasserted_undisturbed : Undisturbed s s.holdDeasserted := by
  unfold State.holdDeasserted
  extract_lets released
  have h : Undisturbed s released := .of_stations rfl rfl
  split
  · exact (h.trans (State.withLoop_undisturbed _ _)).trans (State.raise_undisturbed _ _)
  all_goals exact h

theorem State.startVisit_undisturbed : Undisturbed s s.startVisit := by
  have polled : ∀ (t : State) j f, Undisturbed t (t.openVisit j f) := fun t j f => t.withLoop_undisturbed _
  unfold State.startVisit
  split
  · unfold State.visit
    dsimp only
    split
    · split
      · exact (s.setStation_undisturbed (.paint _ _)).trans (polled _ _ _)
      · exact polled _ _ _
    · exact polled _ _ _
  · exact .refl s

theorem State.endFrame_undisturbed : Undisturbed s s.endFrame := by
  unfold State.endFrame
  split
  · split
    · exact .refl s
    · dsimp only
      split
      · exact s.withLoop_undisturbed _
      · exact (s.modLink_undisturbed _).trans (State.withLoop_undisturbed _ _)
  · exact .refl s

/-! ### The Template Store and the Control Unit -/

theorem State.retireLive_undisturbed (o : Option EntryId) : Undisturbed s (s.retireLive o) :=
  let ⟨stations, _, freeRows, _⟩ := s.retireLive_frame o
  .of_stations stations freeRows

theorem State.loadBegin_undisturbed (p : LoadBegin) : Undisturbed s (s.loadBegin p g) := by
  unfold State.loadBegin
  repeat' split
  all_goals exact .of_stations rfl rfl

theorem State.loadPart_undisturbed (l : List LoadEntry) : Undisturbed s (s.loadPart l g) := by
  unfold State.loadPart
  repeat' split
  all_goals exact .of_stations rfl rfl

theorem State.loadEnd_undisturbed : Undisturbed s (s.loadEnd g) := by
  unfold State.loadEnd
  split
  · exact s.refuseControl_undisturbed _ _
  split
  · exact .of_stations rfl rfl
  · exact (s.retireLive_undisturbed _).trans (.of_stations rfl rfl)

theorem State.loadAbandon_undisturbed : Undisturbed s (s.loadAbandon g) := by
  unfold State.loadAbandon
  split <;> exact .of_stations rfl rfl

theorem State.dropTemplate_undisturbed (id : Nat) : Undisturbed s (s.dropTemplate id g) := by
  unfold State.dropTemplate
  split
  · exact s.refuseControl_undisturbed _ _
  split
  · exact s.refuseControl_undisturbed _ _
  · rename_i e _
    exact (s.retireLive_undisturbed (some e)).trans (State.place_undisturbed _ _ _)

theorem State.queryStation_undisturbed (n : Nat) : Undisturbed s (s.queryStation n g) := by
  unfold State.queryStation
  split <;> exact s.place_undisturbed _ _

theorem State.setEvents_undisturbed (m : Mask) : Undisturbed s (s.setEvents m g) :=
  (s.updateEvents_undisturbed _ _).trans (State.place_undisturbed _ _ _)

theorem State.clearEvents_undisturbed (m : Mask) (o : Option Mask) : Undisturbed s (s.clearEvents m o g) :=
  (s.updateEvents_undisturbed _ _).trans (State.place_undisturbed _ _ _)

theorem State.detachDeferred_undisturbed : Undisturbed s (s.detachDeferred i) := by
  rw [State.detachDeferred_eq, State.answerAll_eq]
  exact .of_stations rfl rfl

theorem State.detachSnapshot_undisturbed : Undisturbed s (s.detachSnapshot i) := by
  unfold State.detachSnapshot
  split
  · exact (s.removeRecord_undisturbed _).trans (State.refuseRecord_undisturbed _ _ _ _ _)
  · exact .refl s

theorem State.detachAttention_undisturbed : Undisturbed s (s.detachAttention i) := by
  unfold State.detachAttention
  split
  · exact (s.removeRecord_undisturbed _).trans (.of_stations rfl rfl)
  · exact .refl s

theorem State.detachQueue_undisturbed : Undisturbed s (s.detachQueue i) :=
  .foldl (fun s _ => s.refuseRecord_undisturbed _ _ _ _) _ s

/-! ### The trunk -/

theorem State.beginFrame_undisturbed : Undisturbed s s.beginFrame := by
  unfold State.beginFrame
  repeat' split
  all_goals exact .of_stations rfl rfl

theorem State.giveBack_undisturbed : Undisturbed s s.giveBack := by
  unfold State.giveBack
  split <;> exact .of_stations rfl rfl

theorem State.startTransmission_undisturbed : Undisturbed s s.startTransmission := by
  unfold State.startTransmission
  split
  · dsimp only
    split <;> exact .of_stations rfl rfl
  · exact .refl s

theorem State.endNotice_undisturbed : Undisturbed s s.endNotice := by
  unfold State.endNotice
  split <;> exact .of_stations rfl rfl

theorem State.releaseReset_undisturbed : Undisturbed s s.releaseReset := by
  unfold State.releaseReset
  split
  · exact Undisturbed.trans (.of_stations (by rfl) (by rfl)) (State.raise_undisturbed _ _)
  · exact .refl s

end

/-! ### A law of the stations -/

/-- What a law of the stations must outlast: a station record changes when a record joins its queue or is taken from it,
when RELEASING or COMPOSING ends, by a keystroke, by a LINE CHECK, at the end of a snapshot freeze, when the station is
attached or detached, and by a reset. -/
structure Outlasts (P : State → Prop) : Prop where
  undisturbed : ∀ {s t : State}, Undisturbed s t → P s → P t
  joined : ∀ {s : State} {i : StationId} (q : Queued), P s → (s.station i).state ≠ .detached →
    (s.station i).records.length < Config.recordQueue →
    P (s.modStation i (fun st => { st with records := st.records ++ [q] }))
  taken : ∀ {s : State} {i : StationId} {q : Queued} {rest : List Queued}, P s → (s.station i).records = q :: rest →
    (s.station i).state ≠ .releasing → P ((s.modStation i (fun st => { st with records := rest })).takeRecord i q)
  released : ∀ {s : State} {i : StationId}, P s → (s.station i).state = .releasing → P (s.endReleasing i)
  composed : ∀ {s : State} {i : StationId}, P s → (s.station i).state = .composing → P (s.endComposing i)
  keyed : ∀ {s : State} {i : StationId} (k : Byte), P s → P (State.deliverKey i s k)
  checked : ∀ {s : State} {i : StationId}, P s → P (s.lineCheckError i)
  thawed : ∀ {s : State} {i : StationId}, P s → (s.station i).lock = .snapshot → P (s.act i Work.openKeyboard)
  attached : ∀ {s : State} {i : StationId} (window : Nat), P s → (s.station i).state = .detached →
    P (s.setStation i (Station.attachedRecord window))
  detached : ∀ {s : State} {i : StationId}, P s → P (s.clearStation i)
  emptied : ∀ {t : State}, (∀ j, t.station j = Station.detachedRecord) → t.freeRows = Config.rowPool → P t

namespace Outlasts

variable {P : State → Prop} (hP : Outlasts P) {s : State} {i : StationId} {g : GenId}
include hP

theorem same_stations {t : State} (h : P s) (hs : t.stations = s.stations) (hf : t.freeRows = s.freeRows) : P t :=
  hP.undisturbed (.of_stations hs hf) h

/-! ### Records taken by a station -/

theorem takeUpTo (fuel : Nat) (h : P s) : P (State.takeUpTo i fuel s) := by
  induction fuel generalizing s with
  | zero => exact h
  | succ n ih =>
    unfold State.takeUpTo
    split
    · exact h
    rename_i q rest hq
    split
    · exact h
    rename_i hr
    simp only [Bool.or_eq_true, beq_iff_eq, not_or] at hr
    exact ih (hP.taken h hq hr.1)

theorem takeWaiting (h : P s) : P (s.takeWaiting i) := hP.takeUpTo _ h

theorem finishReleasing (h : P s) (hs : (s.station i).state = .releasing) : P (s.finishReleasing i) :=
  hP.takeWaiting (hP.released h hs)

theorem markerRendered (h : P s) : P (s.markerRendered i) := by
  unfold State.markerRendered
  extract_lets rendered
  have hr : P rendered := hP.undisturbed (s.modPaint_undisturbed _) h
  split
  · rename_i hs; exact hP.composed hr hs
  · rename_i hs; exact hP.finishReleasing hr hs
  · exact hr

theorem arriveStation (h : P s) (r : StationRecord) : P (s.arriveStation i r g) := by
  unfold State.arriveStation
  split
  · exact hP.undisturbed (s.refuseRecord_undisturbed _ _ _ _) h
  rename_i hs
  split
  · exact hP.undisturbed (s.refuseRecord_undisturbed _ _ _ _) h
  rename_i room
  exact hP.takeWaiting (hP.joined _ h (by simpa using hs) (Nat.lt_of_not_le room))

theorem endSnapshotFreeze (h : P s) : P (s.endSnapshotFreeze i) := by
  unfold State.endSnapshotFreeze
  dsimp only
  split
  · rename_i hl
    exact hP.takeWaiting (hP.thawed h (eq_of_beq hl))
  · exact hP.takeWaiting h

/-! ### The loop -/

theorem stopStation (h : P s) : P (s.stopStation i) := by
  unfold State.stopStation
  split
  · exact h
  extract_lets forgotten st unmarked
  have hf : P forgotten := hP.undisturbed (s.modLink_undisturbed _) h
  have hu : P unmarked := hP.undisturbed (forgotten.modPaint_undisturbed _) hf
  split
  · exact hP.undisturbed (forgotten.setFull_undisturbed _) hf
  split
  · rename_i hs
    have state : (unmarked.station i).state = st.state := by
      rw [((forgotten.modPaint_undisturbed _).stations i).core]
    exact hP.finishReleasing hu (state.trans (eq_of_beq hs))
  · exact hu

theorem stopEffect (h : P s) : P (s.stopEffect g) :=
  hP.undisturbed (State.place_undisturbed _ _ _)
    (foldl_keeps (fun _ _ hb => hP.stopStation hb) _ (hP.undisturbed (s.withLoop_undisturbed _) h))

theorem applyPendingStop (h : P s) : P s.applyPendingStop := by
  unfold State.applyPendingStop
  split
  · exact hP.stopEffect h
  · exact h

theorem endVisit (h : P s) : P (s.endVisit i) := hP.applyPendingStop (hP.undisturbed (s.withLoop_undisturbed _) h)

theorem loopStop (h : P s) : P (s.loopStop g) := by
  unfold State.loopStop
  split
  · exact hP.undisturbed (s.refuseControl_undisturbed _ _) h
  · exact hP.stopEffect h
  split
  · exact hP.undisturbed (s.refuseControl_undisturbed _ _) h
  split
  · exact hP.stopEffect h
  · exact hP.undisturbed (s.withLoop_undisturbed _) h

theorem holdAsserted (h : P s) : P s.holdAsserted := by
  unfold State.holdAsserted
  extract_lets asserted
  have ha : P asserted := hP.same_stations h (by rfl) (by rfl)
  split
  · unfold State.hold
    extract_lets cut _ ended
    have he : P ended := hP.undisturbed (cut.withLoop_undisturbed _) (hP.undisturbed asserted.cutVisit_undisturbed ha)
    clear_value ended
    split
    · exact hP.stopEffect he
    · exact hP.undisturbed ((ended.withLoop_undisturbed _).trans (State.raise_undisturbed _ _)) he
  all_goals exact ha

theorem goOffline (h : P s) : P (s.goOffline i) := by
  unfold State.goOffline
  extract_lets raised offline
  have ho : P offline := hP.undisturbed ((s.raise_undisturbed _).trans (raised.modLink_undisturbed _)) h
  split
  · rename_i hs; exact hP.finishReleasing ho (eq_of_beq hs)
  · exact ho

theorem miss (h : P s) (x : Visit) : P (s.miss x) := by
  unfold State.miss
  split
  · split
    · unfold State.missOnline
      extract_lets counted resynced
      have hc : P counted := hP.undisturbed (s.modLink_undisturbed _) h
      have hr : P resynced := by
        simp only [resynced]
        split
        · exact hP.undisturbed counted.resync_undisturbed hc
        · exact hc
      split
      · exact hP.goOffline hr
      · exact hr
    · exact h
  · exact h

theorem checkNumbers (h : P s) (l : LoopRecord) (e r : Fin 8) : P (s.checkNumbers i l e r) := by
  unfold State.checkNumbers
  split
  · dsimp only
    split
    · exact hP.undisturbed (State.modLink_undisturbed _ _) (hP.markerRendered h)
    · exact hP.undisturbed (s.modLink_undisturbed _) h
  · exact hP.undisturbed s.resync_undisturbed h

theorem goodAnswer (h : P s) (x : Answer) : P (s.goodAnswer i x) := by
  unfold State.goodAnswer
  extract_lets answered judged
  have ha : P answered := hP.undisturbed (s.modLink_undisturbed _) h
  have hj : P judged := by
    simp only [judged]
    split
    · split
      · exact hP.checkNumbers ha _ _ _
      · exact hP.undisturbed answered.comeOnline_undisturbed ha
    · exact ha
  exact hP.endVisit (foldl_keeps (fun _ k hb => hP.keyed k hb) _ hj)

theorem badAnswer (h : P s) (x : Visit) : P (s.badAnswer x) :=
  hP.endVisit (hP.miss (hP.checked (hP.undisturbed (s.raise_undisturbed _) h)) x)

theorem answered (h : P s) (x : Visit) (a : Option Answer) : P (s.answered x a) := by
  unfold State.answered
  split
  · exact hP.goodAnswer h _
  · exact hP.badAnswer h x

/-! ### The Control Unit and the resets -/

theorem attachStation (h : P s) (n w : Nat) : P (s.attachStation n w g) := by
  unfold State.attachStation
  split
  · exact hP.undisturbed (s.refuseControl_undisturbed _ _) h
  rename_i j _
  split
  · exact hP.undisturbed (s.refuseControl_undisturbed _ _) h
  split
  · exact hP.undisturbed (s.refuseControl_undisturbed _ _) h
  · rename_i hs
    extract_lets looped
    have hl : P looped := hP.undisturbed (s.withLoop_undisturbed _) h
    have state : (s.station j).state = .detached := by simpa [State.attached] using hs
    exact hP.undisturbed (State.place_undisturbed _ _ _) (hP.attached _ hl state)

theorem detachStation (h : P s) (n : Nat) : P (s.detachStation n g) := by
  unfold State.detachStation
  split
  · exact hP.undisturbed (s.refuseControl_undisturbed _ _) h
  split
  · exact hP.undisturbed (s.refuseControl_undisturbed _ _) h
  rename_i j _ _
  have hd : P ((s.clearStation j).answer g (.done detachKind)) :=
    hP.undisturbed (State.place_undisturbed _ _ _) (hP.detached h)
  unfold State.endDetachedVisit
  split
  · split
    · exact hP.endVisit hd
    · exact hd
  · split
    · exact hP.applyPendingStop hd
    · exact hd

theorem startUp (r : State) : P r.startUp := hP.emptied (fun j => getElem_replicate_fin _ j) rfl

theorem cleared (r : State) : P r.cleared := hP.emptied (fun j => getElem_replicate_fin _ j) rfl

/-! ### A step -/

theorem execControl (h : P s) (r : ControlRecord) : P (s.execControl r g) := by
  cases r with
  | loadBegin p => exact hP.undisturbed (s.loadBegin_undisturbed p) h
  | loadPart entries => exact hP.undisturbed (s.loadPart_undisturbed entries) h
  | loadEnd => exact hP.undisturbed s.loadEnd_undisturbed h
  | loadAbandon => exact hP.undisturbed s.loadAbandon_undisturbed h
  | dropTemplate id => exact hP.undisturbed (s.dropTemplate_undisturbed id) h
  | attachStation n w => exact hP.attachStation h n w
  | detachStation n => exact hP.detachStation h n
  | loopStart a b c => exact hP.undisturbed (s.loopStart_undisturbed a b c) h
  | loopStop => exact hP.loopStop h
  | queryComposer => exact hP.undisturbed (s.place_undisturbed _ _) h
  | queryStation n => exact hP.undisturbed (s.queryStation_undisturbed n) h
  | setEvents m => exact hP.undisturbed (s.setEvents_undisturbed m) h
  | clearEvents m o => exact hP.undisturbed (s.clearEvents_undisturbed m o) h
  | resetComposer => exact hP.undisturbed (State.raise_undisturbed _ _) (hP.cleared s)

theorem routeFrame (h : P s) (f : TrunkFrame) : P (s.routeFrame f g) := by
  unfold State.routeFrame
  split
  · exact hP.undisturbed (s.place_undisturbed _ _) h
  split
  · unfold State.routeControl
    split
    · exact hP.execControl h _
    · exact hP.undisturbed (s.refuseControl_undisturbed _ _) h
  split
  · unfold State.routeStation
    split
    · exact hP.arriveStation h _
    · exact hP.undisturbed (s.refuseRecord_undisturbed _ _ _ _) h
  · exact hP.undisturbed (s.place_undisturbed _ _) h

/-- R179: the arrival of a frame keeps a law that its meaning keeps. -/
theorem arrive (h : P s) {f : State → GenId → State} (hf : ∀ s g, P s → P (f s g)) : P (s.arrive f) := by
  unfold State.arrive
  split
  · exact h
  · have hb : P s.beginFrame := hP.undisturbed s.beginFrame_undisturbed h
    dsimp only
    split
    · exact hf _ _ (hP.same_stations hb (by rfl) (by rfl))
    · exact hP.same_stations hb (by rfl) (by rfl)
    · exact hb

theorem arriveControl (h : P s) (r : ControlRecord) : P (s.arrive fun s g => s.execControl r g) :=
  hP.arrive h fun _ _ h => hP.execControl h r

theorem arriveRecord (h : P s) (j : StationId) (r : StationRecord) : P (s.arriveRecord j r) :=
  hP.arrive h fun _ _ h => hP.arriveStation h r

theorem endTransmission (h : P s) : P s.endTransmission := by
  unfold State.endTransmission
  split
  · extract_lets idle
    have hi : P idle := hP.same_stations h (by rfl) (by rfl)
    split
    · rename_i k _
      have hf : P (idle.release k) := hP.same_stations hi (by rfl) (by rfl)
      unfold State.endGeneral
      split
      · exact hP.endSnapshotFreeze hf
      · exact hf
    · exact hP.takeWaiting (hP.same_stations hi (by rfl) (by rfl))
    · exact hP.undisturbed idle.endNotice_undisturbed hi
  · exact hP.same_stations h (by rfl) (by rfl)
  · exact h

/-- Every command outlasts a law of the stations. -/
theorem exec (h : P s) {c : Instr} {t : State} (he : exec c s = .next t) : P t := by
  have awaited : ∀ {f : Visit → State}, (∀ x, P (f x)) →
      (match s.awaiting with
        | some x => Host.Outcome.next (f x)
        | none => .next s : Host.Outcome State Fault Refusal) = .next t → P t := by
    intro f hf ht
    split at ht <;> cases ht
    · exact hf _
    · exact h
  cases c with
  | goodAnswer e r keys => exact awaited (fun x => hP.answered h x _) he
  | badAnswer octets => exact awaited (fun x => hP.answered h x _) he
  | answerLineIdle => exact awaited (fun x => hP.badAnswer h x) he
  | windowExpiry => exact awaited (fun x => hP.endVisit (hP.miss h x)) he
  | powerOn =>
    cases he
    exact hP.undisturbed (State.raise_undisturbed _ _) (hP.same_stations (hP.startUp s) (by rfl) (by rfl))
  | resetInputAsserted => cases he; exact hP.same_stations (hP.startUp s.cut) (by rfl) (by rfl)
  | resetInputReleased => cases he; exact hP.undisturbed s.releaseReset_undisturbed h
  | loopHoldAsserted => cases he; exact hP.holdAsserted h
  | loopHoldDeasserted => cases he; exact hP.undisturbed s.holdDeasserted_undisturbed h
  | firstOctet => cases he; exact hP.undisturbed s.beginFrame_undisturbed h
  | transmissionStart => cases he; exact hP.undisturbed s.startTransmission_undisturbed h
  | lastOctetTransmitted => cases he; exact hP.endTransmission h
  | visitStart => cases he; exact hP.undisturbed s.startVisit_undisturbed h
  | frameTransmitted => cases he; exact hP.undisturbed s.endFrame_undisturbed h
  | secondOctetNotStartPattern => cases he; exact hP.undisturbed s.giveBack_undisturbed h
  | frameRefused f => cases he; exact hP.arrive h fun _ _ h => hP.routeFrame h f
  | loadBegin p => cases he; exact hP.arriveControl h (.loadBegin p)
  | loadPart entries => cases he; exact hP.arriveControl h (.loadPart entries)
  | loadEnd => cases he; exact hP.arriveControl h .loadEnd
  | loadAbandon => cases he; exact hP.arriveControl h .loadAbandon
  | dropTemplate id => cases he; exact hP.arriveControl h (.dropTemplate id)
  | attachStation n w => cases he; exact hP.arriveControl h (.attachStation n w)
  | detachStation n => cases he; exact hP.arriveControl h (.detachStation n)
  | loopStart a b d => cases he; exact hP.arriveControl h (.loopStart a b d)
  | loopStop => cases he; exact hP.arriveControl h .loopStop
  | queryComposer => cases he; exact hP.arriveControl h .queryComposer
  | queryStation n => cases he; exact hP.arriveControl h (.queryStation n)
  | setEvents m => cases he; exact hP.arriveControl h (.setEvents m)
  | clearEvents m o => cases he; exact hP.arriveControl h (.clearEvents m o)
  | resetComposer => cases he; exact hP.arriveControl h .resetComposer
  | compose k c => cases he; exact hP.arriveRecord h k _
  | set k ref text => cases he; exact hP.arriveRecord h k _
  | appendRow k row => cases he; exact hP.arriveRecord h k _
  | insertRow k p row => cases he; exact hP.arriveRecord h k _
  | deleteRow k p => cases he; exact hP.arriveRecord h k _
  | tagRow k p tag => cases he; exact hP.arriveRecord h k _
  | cursor k ref => cases he; exact hP.arriveRecord h k _
  | clearModified k entries u => cases he; exact hP.arriveRecord h k _
  | note k a text => cases he; exact hP.arriveRecord h k _
  | lock k => cases he; exact hP.arriveRecord h k _
  | unlock k => cases he; exact hP.arriveRecord h k _
  | resetModified k => cases he; exact hP.arriveRecord h k _
  | read k => cases he; exact hP.arriveRecord h k _
  | release k => cases he; exact hP.arriveRecord h k _
  | recordJoinsQueue k r => cases he; exact hP.arriveRecord h k _

/-- Every step outlasts a law of the stations. -/
theorem step (h : P s) {t : State} (ht : step s = .next t) : P t := by
  unfold Machine.step at ht
  split at ht
  · exact hP.exec (hP.same_stations h (by rfl) (by rfl)) ht
  · cases ht
    exact h

end Outlasts

end Sys2Proof.Machine

/-! PROOFS. What a COMPOSE leaves of the station and of the row pool (R38 to R42), told apart from its steps. -/

namespace Sys2Proof.Machine

variable {s : State} {i : StationId} {g : GenId}

/-! ### The steps of a COMPOSE -/

/-- R42: the station after a COMPOSE that failed at step 2, 3 or 4. -/
def Station.composeFailed (st : Station) : Station :=
  { st with
    state := .blank, lock := .none, typeAhead := [], overrun := false, unlockAtEnd := false, reportSlot := none
    paint := st.paint.setFull st.ctx.isSome .none }

/-- R41: the station after a COMPOSE that succeeded, with its form. -/
def Station.composed (st : Station) (g : GenId) (r : ComposeRec) (form : Context) : Station :=
  { st with
    state := .composing, lock := .system, ctx := some form
    typeAhead := if r.keepTypeAhead then st.typeAhead else [], overrun := r.keepTypeAhead && st.overrun
    unlockAtEnd := r.unlock, reportSlot := if r.report then some g else none
    paint := st.paint.setFull true .owed }

/-- R41, R94: the form of a COMPOSE: the derived instances computed, the window and the cursor placed. -/
def State.composedForm (s : State) (i : StationId) (r : ComposeRec) (c : Context) : Context :=
  placeCursor (s.versionAt c.entry) (s.openWork i c).tallyAll.c r.cursor

/-- R39: the state behind step 2's take of the version: the old form dropped, a COMPOSE still COMPOSING superseded. -/
def State.vacated (s : State) (i : StationId) (e : EntryId) : State := ((s.dropContext i).supersede i).raiseUse e

theorem State.takeCompose_of_live {r : ComposeRec} {e : EntryId} (h : s.liveEntry r.id = some e) (g : GenId) :
    s.takeCompose i g r =
      let t := s.vacated i e
      if (t.versionAt e).group.maxRows < r.rows.length then t.composeFails i g e 0 ⟨.row, 2, none⟩
      else if t.freeRows < r.rows.length then t.composeFails i g e 0 ⟨.pool, 2, none⟩
      else match buildContext (t.versionAt e) e r with
        | .error f => (t.takeRows r.rows.length).composeFails i g e r.rows.length f
        | .ok c => (t.takeRows r.rows.length).composeSucceeds i g r c := by
  unfold State.takeCompose State.vacated
  rw [h] <;> rfl

theorem State.takeCompose_of_none {r : ComposeRec} (h : s.liveEntry r.id = none) (g : GenId) :
    s.takeCompose i g r = s.refuseRecord i g 0x20 .template (some 1) none := by
  unfold State.takeCompose
  rw [h]

/-- R39: the station that has dropped its form, and a COMPOSE still in COMPOSING with it. -/
def Station.vacated (st : Station) : Station :=
  { st with
    ctx := none, reportSlot := none, unlockAtEnd := false
    paint := if st.ctx.isSome then st.formless.paint else st.paint }

section
variable (s : State) (e : EntryId)

theorem State.raiseUse_frame : s.raiseUse e = { s with table := (s.raiseUse e).table } := by
  unfold State.raiseUse
  split <;> rfl

theorem State.dropContext_station : (s.dropContext i).station i
    = if (s.station i).ctx.isSome then (s.station i).formless else s.station i := by
  rw [State.dropContext_frame]
  simp [State.station]

theorem State.dropContext_freeRows : (s.dropContext i).freeRows = s.freeRows + rowsHeld (s.station i) := by
  rw [State.dropContext_frame]

/-- What a version's use more changes is the table. -/
theorem State.vacated_eq : s.vacated i e = { (s.dropContext i).supersede i with table := (s.vacated i e).table } :=
  State.raiseUse_frame _ _

@[simp] theorem State.vacated_station : (s.vacated i e).station i = (s.station i).vacated := by
  have kept : (s.vacated i e).station i = { (s.dropContext i).station i with reportSlot := none, unlockAtEnd := false } := by
    rw [State.vacated_eq, State.supersede_eq]
    simp [State.station]
  rw [kept, State.dropContext_station, Station.vacated]
  split
  · rfl
  · rename_i hc
    rw [← Option.not_isSome_iff_eq_none.mp hc]

@[simp] theorem State.vacated_freeRows : (s.vacated i e).freeRows = s.freeRows + rowsHeld (s.station i) := by
  rw [State.vacated_eq, State.supersede_eq]
  exact s.dropContext_freeRows

/-- R43: a COMPOSE that is superseded gives its slot back. -/
@[simp] theorem State.vacated_general : (s.vacated i e).general = s.reportFreed i := by
  have slot : ((s.dropContext i).station i).reportSlot = (s.station i).reportSlot := by
    rw [State.dropContext_station]; split <;> rfl
  rw [State.vacated_eq, State.supersede_eq]
  simp only [State.reportFreed, slot]
  rw [State.dropContext_frame]

@[simp] theorem State.vacated_raw : (s.vacated i e).raw = (s.dropContext i).raw := by
  rw [State.vacated_eq, State.supersede_eq]

theorem State.vacated_table : (s.vacated i e).table = ((s.dropContext i).raiseUse e).table := by
  unfold State.vacated
  rw [State.supersede_eq]
  simp only [State.raiseUse]
  split <;> rfl

end

section
variable (s : State) (k : Nat)

@[simp] theorem State.takeRows_stations : (s.takeRows k).stations = s.stations := by
  unfold State.takeRows; dsimp only; split <;> simp

@[simp] theorem State.takeRows_station (j : StationId) : (s.takeRows k).station j = s.station j :=
  State.station_eq_of_stations (s.takeRows_stations k) j

@[simp] theorem State.takeRows_freeRows : (s.takeRows k).freeRows = s.freeRows - k := by
  unfold State.takeRows; dsimp only; split <;> simp

@[simp] theorem State.takeRows_general : (s.takeRows k).general = s.general := by
  unfold State.takeRows; dsimp only; split <;> simp

@[simp] theorem State.takeRows_table : (s.takeRows k).table = s.table := by
  unfold State.takeRows; dsimp only; split <;> simp

/-- R32: a take raises POOL LOW when it falls through the boundary. -/
theorem State.takeRows_raw : (s.takeRows k).raw = if poolFalls s.freeRows k then s.raw.raise .poolLow else s.raw := by
  unfold State.takeRows; dsimp only; split <;> simp

end

/-! ### A COMPOSE that fails (R42) -/

section
variable (s : State) (e : EntryId) (n : Nat) (f : ComposeFailure)

theorem State.composeFails_eq : s.composeFails i g e n f =
    let t := State.lowerUse { s with freeRows := s.freeRows + n } e
    { t with
      stations := t.stations.set i (t.station i).composeFailed
      general := t.general.set g (.occupied (stationNumber i) (stationException i 0x20 f.reason (some f.step) f.index))
      waiting := t.waiting ++ [.general g] } := by
  unfold State.composeFails
  simp only [State.setFull, State.modStation_modStation]
  rfl

@[simp] theorem State.composeFails_station : (s.composeFails i g e n f).station i = (s.station i).composeFailed := by
  rw [State.composeFails_eq, State.lowerUse_frame]
  simp [State.station]

@[simp] theorem State.composeFails_freeRows : (s.composeFails i g e n f).freeRows = s.freeRows + n := by
  rw [State.composeFails_eq, State.lowerUse_frame]

theorem State.composeFails_general : (s.composeFails i g e n f).general
    = s.general.set g (.occupied (stationNumber i) (stationException i 0x20 f.reason (some f.step) f.index)) := by
  rw [State.composeFails_eq, State.lowerUse_frame]

theorem State.composeFails_last : (s.composeFails i g e n f).waiting.getLast? = some (.general g) := by
  rw [State.composeFails_eq]
  exact List.getLast?_concat

end

/-! ### A COMPOSE that succeeds (R41) -/

section
variable (s : State) (r : ComposeRec) (c : Context)

theorem State.composeSucceeds_eq : s.composeSucceeds i g r c = { s with
    stations := s.stations.set i ((s.station i).composed g r (s.composedForm i r c))
    general := if r.report then s.general else s.general.set g .free } := by
  have version : (s.openWork i c).tallyAll.v = s.versionAt c.entry := (Work.tallyAll_keeps _).version
  unfold State.composeSucceeds
  simp only [version, State.setFull, State.modStation_modStation]
  split <;> simp_all [State.modStation_eq, State.setStation, Station.composed, State.composedForm, State.release]

@[simp] theorem State.composeSucceeds_station :
    (s.composeSucceeds i g r c).station i = (s.station i).composed g r (s.composedForm i r c) := by
  rw [State.composeSucceeds_eq]
  simp [State.station]

@[simp] theorem State.composeSucceeds_freeRows : (s.composeSucceeds i g r c).freeRows = s.freeRows := by
  rw [State.composeSucceeds_eq]

end

/-! ### The rows of the form (R31, R40) -/

theorem composeRows_length {defs : List FieldDef} {k : Nat} {built out : List RowRec} (l : List RowEntry)
    (h : composeRows defs k built l = .ok out) : out.length = built.length + l.length := by
  induction l generalizing k built with
  | nil => cases h; rfl
  | cons x rest ih =>
    unfold composeRows at h
    split at h
    · cases h
    · rw [ih h, List.length_append, List.length_singleton, List.length_cons]
      omega

/-- R40: a form is built with a row for each row entry. -/
theorem buildContext_rowCount {v : TemplateVersion} {e : EntryId} {r : ComposeRec} {c : Context}
    (h : buildContext v e r = .ok c) : c.rows.length = r.rows.length := by
  unfold buildContext at h
  split at h
  · cases h
  split at h
  · cases h
  rename_i rows hrows
  cases h
  exact (composeRows_length _ hrows).trans (Nat.zero_add _)

theorem placeCursor_rows (v : TemplateVersion) (c : Context) (ref : FieldRef) : (placeCursor v c ref).rows = c.rows := by
  unfold placeCursor
  split <;> rfl

theorem State.composedForm_rowCount (s : State) (r : ComposeRec) (c : Context) :
    (s.composedForm i r c).rows.length = c.rows.length := by
  rw [State.composedForm, placeCursor_rows]
  exact (Work.Computed.tallyAll _).frame.rows

end Sys2Proof.Machine

/-! PROOFS. The row pool (R31): every act on a station leaves the free row records and the rows of its form what they
were together. -/

namespace Sys2Proof.Machine

/-! ### What one act does to the pool -/

/-- An act on station `i` that moves row records between the pool and the form of the station at most, and leaves a
station that holds a form in a state that holds one (R28). -/
structure PoolKept (i : StationId) (s t : State) : Prop where
  others : ∀ j, j ≠ i → t.station j = s.station j
  rows : t.freeRows + rowsHeld (t.station i) = s.freeRows + rowsHeld (s.station i)
  held : ((s.station i).ctx.isSome = true → holdsForm (s.station i).state = true) →
    (t.station i).ctx.isSome = true → holdsForm (t.station i).state = true

variable {i : StationId} {g : GenId} {s t u : State}

theorem rowsHeld_none {st : Station} (h : st.ctx = none) : rowsHeld st = 0 := by simp only [rowsHeld, h]

theorem rowsHeld_some {st : Station} {c : Context} (h : st.ctx = some c) : rowsHeld st = c.rows.length := by
  simp only [rowsHeld, h]

theorem rowsHeld_congr {st st' : Station} (h : st'.ctx = st.ctx) : rowsHeld st' = rowsHeld st := by
  simp only [rowsHeld, h]

/-- R31: the pool's law goes through such an act. -/
theorem PoolKept.law (k : PoolKept i s t) (h : RowPoolLaw s) : RowPoolLaw t := by
  obtain ⟨forms, pool⟩ := h
  have mem : i ∈ stationIds := List.mem_finRange i
  have others : ((stationIds.erase i).map fun j => rowsHeld (t.station j))
      = (stationIds.erase i).map fun j => rowsHeld (s.station j) :=
    List.map_congr_left fun j hj => by
      rw [k.others j (((List.nodup_finRange 16).mem_erase_iff.mp hj).1)]
  refine ⟨fun j hj => ?_, ?_⟩
  · rcases eq_or_ne j i with rfl | hne
    · exact k.held (forms j) hj
    · rw [k.others j hne] at hj ⊢
      exact forms j hj
  · have rows := k.rows
    rw [← List.sum_map_erase _ mem] at pool ⊢
    rw [others]
    omega

namespace PoolKept

theorem refl (i : StationId) (s : State) : PoolKept i s s := ⟨fun _ _ => rfl, rfl, id⟩

theorem trans (h : PoolKept i s t) (k : PoolKept i t u) : PoolKept i s u :=
  ⟨fun j hj => (k.others j hj).trans (h.others j hj), k.rows.trans h.rows, fun hs => k.held (h.held hs)⟩

theorem of_stations (hs : t.stations = s.stations) (hf : t.freeRows = s.freeRows) : PoolKept i s t := by
  refine ⟨fun j _ => State.station_eq_of_stations hs j, ?_, ?_⟩ <;> rw [State.station_eq_of_stations hs]
  · rw [hf]
  · exact id

/-- The station keeps its form. -/
theorem of_same (ho : OnlyStation i s t) (h : SameForms s t) (hf : t.freeRows = s.freeRows) : PoolKept i s t :=
  ⟨ho.stations, by rw [hf, rowsHeld_congr (h.ctx i)], fun hs hc => h.held i hc (hs (h.ctx i ▸ hc))⟩

/-- The station has lost its form, and its rows have gone back to the pool. -/
theorem of_none (ho : OnlyStation i s t) (hc : (t.station i).ctx = none)
    (hf : t.freeRows = s.freeRows + rowsHeld (s.station i)) : PoolKept i s t :=
  ⟨ho.stations, by rw [rowsHeld_none hc, hf]; rfl, fun _ h => by simp [hc] at h⟩

end PoolKept

section
variable (s : State)

theorem State.setLock_freeRows (x : StationState) (l : Lock) : (s.setLock i x l).freeRows = s.freeRows := rfl

theorem State.closeWork_freeRows (w : Work) : (s.closeWork i w).freeRows = w.freeRows := by
  have placed : ∀ (t : State) k, (t.placeLatched i k).freeRows = t.freeRows := fun t k => by cases k <;> rfl
  unfold State.closeWork
  dsimp only
  rw [placed]
  split
  · exact State.raise_freeRows _ _
  · rfl

/-- An act on a form keeps the pool when its work does. -/
theorem State.closeWork_pool {c : Context} {w : Work} (hc : (s.station i).ctx = some c)
    (hl : w.st.link = (s.station i).link)
    (hp : w.seat.free + w.seat.rows = (s.openWork i c).seat.free + (s.openWork i c).seat.rows)
    (hs : holdsForm (s.station i).state = true → holdsForm w.st.state = true) : PoolKept i s (s.closeWork i w) := by
  have station : (s.closeWork i w).station i = { w.st with ctx := some w.c } := by
    rw [State.closeWork_station, if_pos rfl]
  refine ⟨(State.closeWork_only s w hl).stations, ?_, fun h _ => ?_⟩
  · rw [State.closeWork_freeRows, station, rowsHeld_some hc]
    exact hp
  · rw [station]
    exact hs (h (by simp [hc]))

theorem State.act_pool {f : Work → Work} (hk : ∀ w, Keeps w (f w))
    (hp : ∀ w, (f w).seat.free + (f w).seat.rows = w.seat.free + w.seat.rows)
    (hs : ∀ w, holdsForm w.st.state = true → holdsForm (f w).st.state = true) : PoolKept i s (s.act i f) := by
  unfold State.act
  split
  · rename_i c hc
    exact s.closeWork_pool hc (hk _).link (hp _) (hs (s.openWork i c))
  · exact .refl i s

theorem State.act_openKeyboard_pool : PoolKept i s (s.act i Work.openKeyboard) :=
  s.act_pool Work.openKeyboard_keeps (fun w => w.openKeyboard_opened.pool) (fun w _ => w.openKeyboard_holdsForm)

/-- R25: a keystroke moves row records between the pool and the form of its station. -/
theorem State.deliverKey_pool (k : Byte) : PoolKept i s (State.deliverKey i s k) := by
  have joined : PoolKept i s (s.joinTypeAhead i k) := .of_same (s.joinTypeAhead_only k) (s.joinTypeAhead_same k) (by
    unfold State.joinTypeAhead
    dsimp only
    repeat' split
    all_goals simp)
  have applied : ∀ w : Work, (w.applyKey k).seat.free + (w.applyKey k).seat.rows = w.seat.free + w.seat.rows :=
    fun w => (w.applyKey_seat k).elim (fun h => h.pool) (fun h => by rw [h])
  unfold State.deliverKey
  split
  · exact s.act_pool (fun w => w.applyKey_keeps k) applied (fun _ h => Work.applyKey_holdsForm h k)
  · exact joined
  · split
    · exact s.act_pool Work.resetError_keeps (fun w => w.resetError_opened.pool) (fun w _ => Work.openKeyboard_holdsForm _)
    · exact .refl i s
  · exact .refl i s
  · split
    · exact .of_same (s.latchBlank_only k) (s.latchBlank_same k) rfl
    · exact .refl i s
  · exact joined
  · exact joined
  · exact joined
  · exact .refl i s
  · exact .refl i s

theorem State.lineCheckError_pool : PoolKept i s (s.lineCheckError i) := by
  have errs : PoolKept i s (s.act i fun w => w.operatorError .lineCheck) :=
    s.act_pool (fun w => w.operatorError_keeps _) (fun w => by rw [w.operatorError_seat]) (fun w h => by simpa using h)
  unfold State.lineCheckError
  split
  · exact errs
  · exact errs
  · exact .refl i s

/-! ### Records taken by a station -/

theorem State.openBlank_freeRows : (s.openBlank i).freeRows = s.freeRows := by
  unfold State.openBlank
  dsimp only
  repeat' split
  all_goals rfl

theorem State.openBlank_pool (h : (s.station i).ctx = none) : PoolKept i s (s.openBlank i) :=
  .of_same s.openBlank_only (s.openBlank_same h) s.openBlank_freeRows

theorem State.endReleasing_freeRows : (s.endReleasing i).freeRows = s.freeRows := by
  unfold State.endReleasing
  dsimp only
  split <;> rfl

theorem State.endReleasing_pool (h : (s.station i).ctx = none) : PoolKept i s (s.endReleasing i) :=
  .of_same s.endReleasing_only (s.endReleasing_same h) s.endReleasing_freeRows

theorem State.endComposing_pool : PoolKept i s (s.endComposing i) := by
  unfold State.endComposing
  extract_lets st ended cleared
  have he : PoolKept i s ended := by
    simp only [ended]
    split
    · exact s.act_openKeyboard_pool
    · exact .of_same (s.setLock_only _ _) (s.setLock_same _ (.inl rfl)) rfl
  have hc : PoolKept i s cleared := he.trans
    (.of_same (State.modStation_only _ _ (by intro _; rfl)) (State.modStation_same _ (by intro _; rfl) (by intro _; rfl)) rfl)
  clear_value st
  split
  · exact hc.trans (.of_stations rfl rfl)
  · exact hc

/-- R39 to R42: the rows of a COMPOSE come from the pool, and the old form's go back to it. -/
theorem State.takeCompose_pool (r : ComposeRec) : PoolKept i s (s.takeCompose i g r) := by
  have only : OnlyStation i s (s.takeCompose i g r) := s.takeCompose_only g r
  cases he : s.liveEntry r.id with
  | none => exact State.takeCompose_of_none he g ▸ .of_stations rfl rfl
  | some e =>
    have fails : ∀ {t : State} {n : Nat} {f : ComposeFailure}, (t.station i).ctx = none →
        t.freeRows + n = s.freeRows + rowsHeld (s.station i) → OnlyStation i s (t.composeFails i g e n f) →
        PoolKept i s (t.composeFails i g e n f) := fun {t n f} hc hf ho =>
      .of_none ho (by simp [Station.composeFailed, hc]) (by simpa using hf)
    have vacant : ((s.vacated i e).station i).ctx = none := by simp [Station.vacated]
    rw [State.takeCompose_of_live he g] at only ⊢
    dsimp only at only ⊢
    split at only
    · rename_i hrows
      rw [if_pos hrows]
      exact fails vacant (by simp) only
    rename_i hrows
    rw [if_neg hrows]
    split at only
    · rename_i hfree
      rw [if_pos hfree]
      exact fails vacant (by simp) only
    rename_i hfree
    rw [if_neg hfree]
    have room : r.rows.length ≤ s.freeRows + rowsHeld (s.station i) := by simpa using hfree
    split at only
    · exact fails (by simpa using vacant) (by simp; omega) only
    · rename_i c hb
      refine ⟨only.stations, ?_, fun _ _ => by simp [Station.composed, holdsForm]⟩
      rw [State.composeSucceeds_station, rowsHeld_some rfl, State.composedForm_rowCount, buildContext_rowCount hb]
      simp
      omega

theorem State.takeFill_pool (l : List FillEntry) (u m : Bool) : PoolKept i s (s.takeFill i g l u m) := by
  unfold State.takeFill
  split
  · exact .of_stations rfl rfl
  · rename_i c hc
    have pool : ((s.openWork i c).fill l u m).1.seat.free + ((s.openWork i c).fill l u m).1.seat.rows
        = (s.openWork i c).seat.free + (s.openWork i c).seat.rows :=
      ((s.openWork i c).fill_seat l u m).elim (fun h => h.pool) (fun h => h.2.pool)
    have closed : PoolKept i s (s.closeWork i ((s.openWork i c).fill l u m).1) :=
      s.closeWork_pool hc (Work.fill_keeps _ l u m).link pool (fun h => Work.fill_holdsForm (w := s.openWork i c) h l u m)
    split
    all_goals
      rename_i e
      rw [e] at closed
      exact closed.trans (.of_stations rfl rfl)

theorem State.takeUnlock_pool : PoolKept i s (s.takeUnlock i g) := by
  unfold State.takeUnlock
  split
  · rename_i hc
    exact (s.openBlank_pool hc).trans (.of_stations rfl rfl)
  · have unlocked : PoolKept i s (s.act i Work.unlock) := s.act_pool Work.unlock_keeps
      (fun w => w.unlock_seat.elim (fun h => by rw [h]) (fun h => h.2.pool)) (fun _ h => Work.unlock_holdsForm h)
    exact unlocked.trans (.of_stations rfl rfl)
  · exact .of_stations rfl rfl

theorem State.takeResetModified_pool : PoolKept i s (s.takeResetModified i g) := by
  unfold State.takeResetModified
  split
  · rename_i c hc
    have cleared : PoolKept i s (s.modStation i fun st => { st with ctx := some (clearModifiedIn c) }) := by
      refine ⟨fun j hj => State.station_setStation_ne s _ hj, ?_, fun h _ => ?_⟩
      · rw [State.modStation_eq, State.station_setStation_self, rowsHeld_some rfl, rowsHeld_some hc]
        simp [clearModifiedIn]
      · rw [State.modStation_eq, State.station_setStation_self]
        exact h (by simp [hc])
    exact cleared.trans (.of_stations rfl rfl)
  · exact .of_stations rfl rfl

/-- R44: the rows of a form that is released go back to the pool. -/
theorem State.takeRelease_pool : PoolKept i s (s.takeRelease i g) := by
  cases hc : (s.station i).ctx with
  | some c =>
    have some : (s.station i).ctx.isSome = true := by simp [hc]
    have only : OnlyStation i s (s.takeRelease i g) := s.takeRelease_only g
    rw [State.takeRelease_some some] at only ⊢
    refine .of_none only ?_ ?_ <;> split
    · simp [State.released, State.station, Station.released]
    · simp [State.beginReleasing, State.station, Station.releasing]
    all_goals exact s.dropContext_freeRows
  | none =>
    unfold State.takeRelease
    rw [hc]
    exact (s.openBlank_pool hc).trans (.of_stations rfl rfl)

theorem State.takeRecord_pool (q : Queued) : PoolKept i s (s.takeRecord i q) := by
  unfold State.takeRecord
  split
  · exact s.takeCompose_pool _
  · exact s.takeFill_pool _ _ _
  · exact .of_same (s.takeNote_only _ _ _) (s.takeNote_same _ _) (by
      unfold State.takeNote
      repeat' split
      all_goals rfl)
  · exact .of_same (s.takeLock_only _) s.takeLock_same (by unfold State.takeLock; split <;> rfl)
  · exact s.takeUnlock_pool
  · exact s.takeResetModified_pool
  · exact .of_same (s.takeRead_only _) s.takeRead_same (by
      unfold State.takeRead
      dsimp only
      repeat' split
      all_goals rfl)
  · exact s.takeRelease_pool

/-- R47: the rows of a detached station go back to the pool. -/
theorem State.dropContext_pool : PoolKept i s (s.dropContext i) :=
  .of_none s.dropContext_only s.dropContext_ctx s.dropContext_freeRows

end

/-! ### Every step -/

/-- R28: a station in another state holds no form. -/
theorem FormsHeld.ctx_none (h : FormsHeld s) (hs : holdsForm (s.station i).state = false) : (s.station i).ctx = none := by
  by_contra hc
  rw [h i (Option.ne_none_iff_isSome.mp hc)] at hs
  cases hs

theorem Undisturbed.rowPool (k : Undisturbed s t) (h : RowPoolLaw s) : RowPoolLaw t := by
  have core : ∀ j, (t.station j).ctx = (s.station j).ctx ∧ (t.station j).state = (s.station j).state := fun j => by
    rw [(k.stations j).core]
    exact ⟨rfl, rfl⟩
  obtain ⟨forms, pool⟩ := h
  refine ⟨fun j hj => ?_, ?_⟩
  · rw [(core j).2]
    exact forms j ((core j).1 ▸ hj)
  · simpa only [k.freeRows, rowsHeld_congr (core _).1] using pool

/-- R31: the law of the row pool outlasts every act. -/
theorem rowPoolLaw_outlasts : Outlasts RowPoolLaw where
  undisturbed := Undisturbed.rowPool
  joined _ h _ _ := (PoolKept.of_same (State.modStation_only _ _ (by intro _; rfl))
    (State.modStation_same _ (by intro _; rfl) (by intro _; rfl)) rfl).law h
  taken h _ _ := ((PoolKept.of_same (State.modStation_only _ _ (by intro _; rfl))
    (State.modStation_same _ (by intro _; rfl) (by intro _; rfl)) rfl).trans (State.takeRecord_pool _ _)).law h
  released {s i} h hs := by
    have formless : (s.station i).ctx = none := h.1.ctx_none (by rw [hs]; rfl)
    exact (s.endReleasing_pool formless).law h
  composed {s _} h _ := s.endComposing_pool.law h
  keyed {s _} k h := (s.deliverKey_pool k).law h
  checked {s _} h := s.lineCheckError_pool.law h
  thawed {s _} h _ := s.act_openKeyboard_pool.law h
  attached {s i} _ h hs := by
    have formless : (s.station i).ctx = none := h.1.ctx_none (by rw [hs]; rfl)
    refine PoolKept.law (i := i) ⟨fun j hj => State.station_setStation_ne s _ hj, ?_, fun _ hc => ?_⟩ h
    · rw [State.station_setStation_self, rowsHeld_none formless]
      rfl
    · rw [State.station_setStation_self] at hc
      cases hc
  detached {s i} h := by
    unfold State.clearStation
    extract_lets dropped purged
    have same : Undisturbed dropped purged := ((dropped.detachDeferred_undisturbed.trans
      (State.detachSnapshot_undisturbed _)).trans (State.detachAttention_undisturbed _)).trans
      (State.detachQueue_undisturbed _)
    have hp : RowPoolLaw purged := same.rowPool (s.dropContext_pool.law h)
    have formless : (purged.station i).ctx = none := by
      rw [(same.stations i).core]
      exact s.dropContext_ctx
    clear_value purged
    refine PoolKept.law (i := i) ⟨fun j hj => State.station_setStation_ne _ _ hj, ?_, fun _ hc => ?_⟩ hp
    · rw [State.station_setStation_self, rowsHeld_none formless]
      rfl
    · rw [State.station_setStation_self] at hc
      cases hc
  emptied {t} hs hf := by
    refine ⟨fun j hj => ?_, ?_⟩
    · rw [hs] at hj
      cases hj
    · have empty : ∀ n ∈ stationIds.map (fun j => rowsHeld (t.station j)), n = 0 := fun n hn => by
        obtain ⟨j, -, rfl⟩ := List.mem_map.mp hn
        rw [hs]
        rfl
      rw [hf, List.sum_eq_zero empty, Nat.add_zero]

/-- Settles O55: the walk over the commands, for the law of the row pool. -/
theorem stepKeepsRowPool : Obligations.StepKeepsRowPool :=
  fun _ _ h ht => rowPoolLaw_outlasts.step h ht

end Sys2Proof.Machine

/-! PROOFS. The states of the stations (R24, R28, R43, R45): what the state of a station decides of its lock, its form and
the slots it keeps, and that every act at the station leaves it so. -/

namespace Sys2Proof.Machine

/-! ### One station -/

/-- What its state decides of one station (R24, R28, R163, R43, R45). -/
structure StationOk (st : Station) : Prop where
  link : st.state = .detached ↔ st.link = none
  records : st.state = .detached → st.records = []
  form : st.state = .composing ∨ st.state = .entry ∨ st.state = .held → st.ctx.isSome = true
  held : st.ctx.isSome = true → holdsForm st.state = true
  lock : lockAdmitted st.state st.lock
  queue : st.lock = .none ∨ st.state = .releasing → st.typeAhead = []
  report : st.reportSlot ≠ none → st.state = .composing
  release : st.releaseSlot ≠ none ↔ st.state = .releasing

theorem stationLaw_iff {s : State} : StationLaw s ↔ ∀ i, StationOk (s.station i) :=
  forall_congr' fun _ => ⟨fun ⟨a, b, c, d, e, f, g, h⟩ => ⟨a, b, c, d, e, f, g, h⟩,
    fun ⟨a, b, c, d, e, f, g, h⟩ => ⟨a, b, c, d, e, f, g, h⟩⟩

/-- A station that takes a record: attached and not RELEASING (R35). -/
structure Station.Takes (st : Station) : Prop where
  ok : StationOk st
  attached : st.state ≠ .detached
  notReleasing : st.state ≠ .releasing

namespace StationOk

variable {st : Station} (h : StationOk st)
include h

theorem alike {st' : Station} (k : st.Alike st') : StationOk st' := by
  rw [k.core]
  exact ⟨h.link.trans k.link.symm, h.records, h.form, h.held, h.lock, h.queue, h.report, h.release⟩

/-- R28: a station in another state holds no form. -/
theorem formless (hs : holdsForm st.state = false) : st.ctx = none := by
  by_contra hc
  rw [h.held (Option.ne_none_iff_isSome.mp hc)] at hs
  cases hs

/-- The form of a station changes, and no station gains or loses one. -/
theorem withForm {o : Option Context} (ho : o.isSome = st.ctx.isSome) : StationOk { st with ctx := o } :=
  ⟨h.link, h.records, fun hs => ho.trans (h.form hs), fun hc => h.held (ho.symm.trans hc), h.lock, h.queue, h.report,
    h.release⟩

theorem reportSlot_none (hs : st.state ≠ .composing) : st.reportSlot = none := by
  by_contra hr
  exact hs (h.report hr)

theorem releaseSlot_none (hs : st.state ≠ .releasing) : st.releaseSlot = none := by
  by_contra hr
  exact hs (h.release.mp hr)

end StationOk

theorem Station.Takes.linked {st : Station} (h : st.Takes) : st.link ≠ none := mt h.ok.link.mpr h.attached

/-- R46: a station just attached. -/
theorem attachedRecord_ok (window : Nat) : StationOk (Station.attachedRecord window) where
  link := by simp [Station.attachedRecord]
  records := fun _ => rfl
  form := by simp [Station.attachedRecord]
  held := by simp [Station.attachedRecord, Station.detachedRecord]
  lock := rfl
  queue := fun _ => rfl
  report := fun hr => absurd rfl hr
  release := by simp [Station.attachedRecord, Station.detachedRecord]

/-- R48: a DETACHED station. -/
theorem detachedRecord_ok : StationOk Station.detachedRecord where
  link := by simp [Station.detachedRecord]
  records := fun _ => rfl
  form := by simp [Station.detachedRecord]
  held := by simp [Station.detachedRecord]
  lock := rfl
  queue := fun _ => rfl
  report := fun hr => absurd rfl hr
  release := by simp [Station.detachedRecord]

/-! ### Acts on a form -/

/-- What the seat of an act on a form must be for the station to be as its state says (R24). -/
structure Seat.Sound (a : Seat) : Prop where
  held : holdsForm a.state = true
  lock : lockAdmitted a.state a.lock
  queue : a.lock = .none → a.typeAhead = []

theorem Seat.Filled.sound {a b : Seat} (h : a.Filled b) (ha : a.Sound) : b.Sound :=
  ⟨by rw [h.state]; exact ha.held, by rw [h.state, h.lock]; exact ha.lock,
    by rw [h.lock, h.typeAhead]; exact ha.queue⟩

/-- R25: keys are applied in ENTRY, which admits an operator error. -/
theorem Seat.Keyed.sound {a b : Seat} (h : a.Keyed b) (ha : a.Sound) (hs : a.state = .entry) : b.Sound := by
  have state : b.state = .entry := h.state.trans hs
  rcases h.lock with e | ⟨code, e⟩
  · exact ⟨by rw [h.state]; exact ha.held, by rw [h.state, e]; exact ha.lock, by rw [e, h.typeAhead]; exact ha.queue⟩
  · exact ⟨by rw [state]; rfl, by simp [state, e, lockAdmitted], by simp [e]⟩

theorem Seat.latched_sound (a : Seat) : Seat.Sound { a with state := .attention, lock := .system } :=
  ⟨rfl, rfl, by simp⟩

theorem Seat.Opened.sound {a b : Seat} (h : a.Opened b) : b.Sound := by
  rcases h.place with ⟨state, lock⟩ | ⟨state, lock, queue⟩ | ⟨state, lock⟩
  · exact ⟨by rw [state]; rfl, by simp [state, lock, lockAdmitted], by simp [lock]⟩
  · refine ⟨by rw [state]; rfl, ?_, fun _ => queue⟩
    rcases lock with lock | ⟨code, lock⟩ <;> simp [state, lock, lockAdmitted]
  · exact ⟨by rw [state]; rfl, by simp [state, lock, lockAdmitted], by simp [lock]⟩

variable {i : StationId} {g : GenId} {s : State}

/-- A station with a form brings a sound seat to an act. -/
theorem StationOk.openWork_sound (h : StationOk (s.station i)) {c : Context} (hc : (s.station i).ctx = some c) :
    (s.openWork i c).seat.Sound :=
  ⟨h.held (by simp [hc]), h.lock, fun hl => h.queue (.inl hl)⟩

/-- An act whose work ends with a sound seat leaves the station as its state says, but for a report still pending. -/
theorem StationOk.afterWork (h : StationOk (s.station i)) {c : Context} {w : Work} (hc : (s.station i).ctx = some c)
    (hk : Keeps (s.openWork i c) w) (hw : w.seat.Sound) {r : Option GenId}
    (hr : r ≠ none → w.st.state = .composing) : StationOk { w.st with ctx := some w.c, reportSlot := r } := by
  have before : holdsForm (s.station i).state = true := h.held (by simp [hc])
  have other : ∀ {x : StationState}, holdsForm x = true → x ≠ .detached ∧ x ≠ .releasing := by
    rintro x hx
    constructor <;> rintro rfl <;> cases hx
  obtain ⟨attached, notReleasing⟩ := other before
  obtain ⟨attached', notReleasing'⟩ := other hw.held
  have slot : w.st.releaseSlot = none := hk.releaseSlot.trans (h.releaseSlot_none notReleasing)
  have linked : w.st.link ≠ none := fun e => attached (h.link.mpr (hk.link.symm.trans e))
  exact ⟨⟨fun e => absurd e attached', fun e => absurd e linked⟩, fun e => absurd e attached', fun _ => rfl,
    fun _ => hw.held, hw.lock, fun e => hw.queue (e.resolve_right notReleasing'), hr,
    ⟨fun e => absurd slot e, fun e => absurd e notReleasing'⟩⟩

/-- The station after an act that keeps it as its state says. -/
theorem StationOk.closeWork (h : StationOk (s.station i)) {c : Context} {w : Work} (hc : (s.station i).ctx = some c)
    (hk : Keeps (s.openWork i c) w) (hw : w.seat.Sound)
    (hs : (s.station i).state = .composing → w.st.state = .composing) : StationOk ((s.closeWork i w).station i) := by
  rw [State.closeWork_station, if_pos rfl]
  exact h.afterWork hc hk hw fun hr => hs (h.report (hk.reportSlot ▸ hr))

theorem StationOk.act (h : StationOk (s.station i)) {f : Work → Work} (hk : ∀ w, Keeps w (f w))
    (hw : ∀ c, (s.station i).ctx = some c → (f (s.openWork i c)).seat.Sound)
    (hs : (s.station i).state = .composing → ∀ c, (f (s.openWork i c)).st.state = .composing) :
    StationOk ((s.act i f).station i) := by
  unfold State.act
  split
  · rename_i c hc
    exact h.closeWork hc (hk _) (hw c hc) fun e => hs e c
  · exact h

/-! ### The state and the lock changed together (R24) -/

theorem State.setLock_station (s : State) (i : StationId) (x : StationState) (l : Lock) : (s.setLock i x l).station i
    = { s.station i with state := x, lock := l, paint := ((s.setLock i x l).station i).paint } := by
  rw [State.setLock_eq, State.station_setStation_self]
  unfold Station.withIndicator
  dsimp only
  split <;> rfl

theorem State.latchBlank_station (s : State) (i : StationId) (k : Byte) :
    (s.latchBlank i k).station i = (s.setLock i .attention .system).station i := rfl

@[simp] theorem State.doneRecord_station (s : State) (i j : StationId) (g : GenId) (k : Nat) :
    (s.doneRecord i g k).station j = s.station j := rfl

/-- R24: a station in a state that holds a form, or BLANK without one. -/
theorem StationOk.withState {st : Station} (h : StationOk st) (ha : st.state ≠ .detached) {x : StationState} {l : Lock}
    {q : List Byte} {o : Bool} {p : Paint} {r z : Option GenId}
    (hc : if st.ctx.isSome then holdsForm x = true else x = .blank ∨ x = .attention)
    (hl : lockAdmitted x l) (hq : l = .none → q = []) (hr : r = none) (hz : z = none) :
    StationOk { st with
      state := x, lock := l, typeAhead := q, overrun := o, paint := p, reportSlot := r, releaseSlot := z } := by
  have linked : st.link ≠ none := mt h.link.mpr ha
  have place : x ≠ .detached ∧ x ≠ .releasing := by
    split at hc
    · constructor <;> rintro rfl <;> cases hc
    · rcases hc with rfl | rfl <;> exact ⟨nofun, nofun⟩
  refine ⟨⟨fun e => absurd e place.1, fun e => absurd e linked⟩, fun e => absurd e place.1, fun e => ?_, fun e => ?_, hl,
    fun e => hq (e.resolve_right place.2), fun e => absurd hr e, ⟨fun e => absurd hz e, fun e => absurd e place.2⟩⟩
  · by_contra hn
    rw [if_neg hn] at hc
    rcases hc with rfl | rfl <;> simp at e
  · rwa [if_pos e] at hc

/-- R24: as `withState`, for a station that keeps no slot before the change. -/
theorem StationOk.restated {st : Station} (h : StationOk st) (ha : st.state ≠ .detached) (hr : st.state ≠ .releasing)
    (hn : st.state ≠ .composing) {x : StationState} {l : Lock} {q : List Byte} {o : Bool} {p : Paint}
    (hc : if st.ctx.isSome then holdsForm x = true else x = .blank ∨ x = .attention)
    (hl : lockAdmitted x l) (hq : l = .none → q = []) :
    StationOk { st with state := x, lock := l, typeAhead := q, overrun := o, paint := p } :=
  h.withState ha hc hl hq (h.reportSlot_none hn) (h.releaseSlot_none hr)

/-- R25: a keystroke queued, or its overrun flagged, where the lock is not NONE. -/
theorem StationOk.queued {st : Station} (h : StationOk st) (hl : st.lock ≠ .none) (hr : st.state ≠ .releasing)
    (q : List Byte) (o : Bool) : StationOk { st with typeAhead := q, overrun := o } :=
  ⟨h.link, h.records, h.form, h.held, h.lock, fun e => absurd e (by simp [hl, hr]), h.report, h.release⟩

/-! ### Keystrokes (R25, R36) -/

theorem StationOk.joinTypeAhead (h : StationOk (s.station i)) (hl : (s.station i).lock ≠ .none)
    (hr : (s.station i).state ≠ .releasing) (k : Byte) : StationOk ((s.joinTypeAhead i k).station i) := by
  unfold State.joinTypeAhead
  dsimp only
  split
  · rw [State.station_setStation_self]
    exact h.queued hl hr _ _
  split
  · exact h
  · rw [State.raise_station, State.station_setStation_self]
    exact h.queued hl hr _ _

/-- R137: an attention key latches at a BLANK station. -/
theorem StationOk.latchBlank (h : StationOk (s.station i)) (hs : (s.station i).state = .blank) (k : Byte) :
    StationOk ((s.latchBlank i k).station i) := by
  rw [State.latchBlank_station, State.setLock_station]
  exact h.restated (by simp [hs]) (by simp [hs]) (by simp [hs])
    (by simp [h.formless (by rw [hs]; rfl)]) rfl (by simp)

theorem StationOk.deliverKey (h : StationOk (s.station i)) (k : Byte) : StationOk ((State.deliverKey i s k).station i) := by
  have system : ∀ {x : StationState}, (s.station i).state = x → x ≠ .entry → x ≠ .blank → (s.station i).lock ≠ .none := by
    intro x hs he hb hl
    have := h.lock
    rw [hs, hl] at this
    cases x <;> simp_all [lockAdmitted]
  have joined : ∀ {x : StationState}, (s.station i).state = x → x ≠ .entry → x ≠ .blank → x ≠ .releasing →
      StationOk ((s.joinTypeAhead i k).station i) := fun hs he hb hr =>
    h.joinTypeAhead (system hs he hb) (hs ▸ hr) k
  unfold State.deliverKey
  split
  · rename_i hs _
    refine h.act (fun w => w.applyKey_keeps k) (fun c hc => ?_) (by simp [hs])
    have sound := h.openWork_sound hc
    rcases (s.openWork i c).applyKey_seat k with key | latched
    · exact key.sound sound hs
    · rw [latched]
      exact Seat.latched_sound _
  · rename_i hs hl
    exact h.joinTypeAhead (by simp [hl]) (by simp [hs]) k
  · rename_i hs _
    split
    · exact h.act Work.resetError_keeps (fun c _ => (s.openWork i c).resetError_opened.sound) (by simp [hs])
    · exact h
  · exact h
  · rename_i hs
    split
    · exact h.latchBlank hs k
    · exact h
  · rename_i hs; exact joined hs (by simp) (by simp) (by simp)
  · rename_i hs; exact joined hs (by simp) (by simp) (by simp)
  · rename_i hs; exact joined hs (by simp) (by simp) (by simp)
  · exact h
  · exact h

/-- R26: LINE CHECK in ENTRY. -/
theorem StationOk.lineCheckError (h : StationOk (s.station i)) : StationOk ((s.lineCheckError i).station i) := by
  have errs : (s.station i).state = .entry → StationOk ((s.act i fun w => w.operatorError .lineCheck).station i) :=
    fun hs => h.act (fun w => w.operatorError_keeps _)
      (fun c hc => ((s.openWork i c).operatorError_keyed .lineCheck).sound (h.openWork_sound hc) hs) (by simp [hs])
  unfold State.lineCheckError
  split
  · rename_i hs _; exact errs hs
  · rename_i hs _; exact errs hs
  · exact h

/-- R27: the keyboard opened from a state other than COMPOSING. -/
theorem StationOk.openKeyboard (h : StationOk (s.station i)) (hs : (s.station i).state ≠ .composing) :
    StationOk ((s.act i Work.openKeyboard).station i) :=
  h.act Work.openKeyboard_keeps (fun c _ => (s.openWork i c).openKeyboard_opened.sound) (fun e => absurd e hs)

/-! ### The end of RELEASING and of COMPOSING -/

/-- R45: RELEASING ends in BLANK. -/
theorem StationOk.endReleasing (h : StationOk (s.station i)) (hs : (s.station i).state = .releasing) :
    StationOk ((s.endReleasing i).station i) := by
  have station : (s.endReleasing i).station i = { (s.setLock i .blank .none).station i with
      releaseSlot := none, paint := { ((s.setLock i .blank .none).station i).paint with marker := .none } } := by
    unfold State.endReleasing
    dsimp only
    split <;> simp [State.modStation_eq, State.place, State.station, State.setStation]
  have formless := h.formless (by rw [hs]; rfl)
  have queue := h.queue (.inr hs)
  have report := h.reportSlot_none (by simp [hs])
  rw [station, State.setLock_station]
  exact h.withState (by simp [hs]) (by simp [formless]) rfl (fun _ => queue) report rfl

/-- R43: COMPOSING ends in ENTRY, or in ATTENTION by a drained key, or in HELD. -/
theorem StationOk.endComposing (h : StationOk (s.station i)) (hs : (s.station i).state = .composing) :
    StationOk ((s.endComposing i).station i) := by
  have station : (s.endComposing i).station i = { (if (s.station i).unlockAtEnd then s.act i Work.openKeyboard
      else s.setLock i .held .system).station i with unlockAtEnd := false, reportSlot := none } := by
    unfold State.endComposing
    dsimp only
    split <;> simp [State.modStation_eq, State.place, State.station, State.setStation]
  have form := h.form (.inl hs)
  have release := h.releaseSlot_none (by simp [hs])
  have ended : ∀ {st : Station}, StationOk st → StationOk { st with unlockAtEnd := false } := fun k =>
    ⟨k.link, k.records, k.form, k.held, k.lock, k.queue, k.report, k.release⟩
  rw [station]
  split
  · obtain ⟨c, hc⟩ := Option.isSome_iff_exists.mp form
    rw [State.act, hc]
    dsimp only
    rw [State.closeWork_station, if_pos rfl]
    exact ended (h.afterWork hc (Work.openKeyboard_keeps _) (s.openWork i c).openKeyboard_opened.sound (r := none)
      (fun e => absurd rfl e))
  · rw [State.setLock_station]
    have held : StationOk { s.station i with
        state := .held, lock := .system, paint := ((s.setLock i .held .system).station i).paint, reportSlot := none } :=
      h.withState (by simp [hs]) (by rw [if_pos form]; rfl) rfl (by simp) rfl release
    exact ended held

/-! ### Records taken by a station -/

/-- R37, R44, R127: a station without a form is opened: BLANK with an empty queue, or ATTENTION latched again. -/
theorem State.openBlank_station (s : State) (i : StationId) : ∃ x l q o p, (s.openBlank i).station i
      = { s.station i with state := x, lock := l, typeAhead := q, overrun := o, paint := p }
    ∧ (x = .blank ∧ l = .none ∧ q = [] ∨ x = .attention ∧ l = .system) := by
  unfold State.openBlank
  extract_lets opened st
  have blank : ∃ p, opened.station i = { s.station i with state := .blank, lock := .none, paint := p } :=
    ⟨_, s.setLock_station i .blank .none⟩
  clear_value opened
  obtain ⟨p, blank⟩ := blank
  split
  · rw [State.modStation_eq, State.station_setStation_self, blank]
    exact ⟨.blank, .none, [], false, _, rfl, .inl ⟨rfl, rfl, rfl⟩⟩
  split
  · rename_i key rest _
    rw [State.latchBlank_station, State.setLock_station, State.modStation_eq, State.station_setStation_self, blank]
    exact ⟨.attention, .system, rest, (s.station i).overrun, _, rfl, .inr ⟨rfl, rfl⟩⟩
  · rw [State.modStation_eq, State.station_setStation_self, blank]
    exact ⟨.blank, .none, [], (s.station i).overrun, _, rfl, .inl ⟨rfl, rfl, rfl⟩⟩

namespace Station.Takes

variable (h : (s.station i).Takes)
include h

theorem openBlank (hc : (s.station i).ctx = none) : StationOk ((s.openBlank i).station i) := by
  obtain ⟨x, l, q, o, p, station, place⟩ := s.openBlank_station i
  have hn : (s.station i).state ≠ .composing := fun e => by simpa [hc] using h.ok.form (.inl e)
  rw [station]
  rcases place with ⟨rfl, rfl, rfl⟩ | ⟨rfl, rfl⟩
  · exact h.ok.restated h.attached h.notReleasing hn (by simp [hc]) rfl (fun _ => rfl)
  · exact h.ok.restated h.attached h.notReleasing hn (by simp [hc]) rfl (by simp)

theorem takeCompose (r : ComposeRec) : StationOk ((s.takeCompose i g r).station i) := by
  have release := h.ok.releaseSlot_none h.notReleasing
  have failed : StationOk (s.station i).vacated.composeFailed := by
    refine ⟨⟨nofun, fun e => absurd e h.linked⟩, nofun, fun e => ?_, nofun, rfl, fun _ => rfl, fun e => absurd rfl e,
      ⟨fun e => absurd release e, nofun⟩⟩
    rcases e with e | e | e <;> cases e
  have composed : ∀ form, StationOk ((s.station i).vacated.composed g r form) := fun form =>
    ⟨⟨nofun, fun e => absurd e h.linked⟩, nofun, fun _ => rfl, fun _ => rfl, rfl,
      fun e => (e.elim nofun nofun), fun _ => rfl, ⟨fun e => absurd release e, nofun⟩⟩
  cases he : s.liveEntry r.id with
  | none => exact State.takeCompose_of_none he g ▸ h.ok
  | some e =>
    rw [State.takeCompose_of_live he g]
    dsimp only
    split
    · simpa using failed
    split
    · simpa using failed
    split
    · simpa using failed
    · simpa using composed _

theorem takeFill (l : List FillEntry) (u m : Bool) : StationOk ((s.takeFill i g l u m).station i) := by
  unfold State.takeFill
  split
  · exact h.ok
  · rename_i c hc
    have keeps := Work.fill_keeps (s.openWork i c) l u m
    have closed : StationOk ((s.closeWork i ((s.openWork i c).fill l u m).1).station i) := by
      rcases (s.openWork i c).fill_seat l u m with filled | ⟨hs, opened⟩
      · exact h.ok.closeWork hc keeps (filled.sound (h.ok.openWork_sound hc)) fun e => filled.state.trans e
      · exact h.ok.closeWork hc keeps opened.sound fun e => hs.elim (fun k => nomatch e.symm.trans k)
          (fun k => nomatch e.symm.trans k)
    split
    all_goals
      rename_i e
      rw [e] at closed
      exact closed

theorem takeNote (a : Bool) (x : Text) : StationOk ((s.takeNote i g a x).station i) := by
  unfold State.takeNote
  split
  · exact h.ok
  · extract_lets noted painted alarmed
    have hn : StationOk (noted.station i) := by
      simp only [noted, State.modStation_eq, State.station_setStation_self]
      exact h.ok.alike ⟨rfl, Iff.rfl⟩
    have hp : StationOk (painted.station i) := hn.alike ((noted.setStation_undisturbed (.paint _ _)).stations i)
    have ha : StationOk (alarmed.station i) := by
      simp only [alarmed]
      split
      · exact hp.alike ((painted.modPaint_undisturbed _).stations i)
      · exact hp
    exact ha

theorem takeLock : StationOk ((s.takeLock i g).station i) := by
  unfold State.takeLock
  split
  · rename_i c hs hc
    rw [State.doneRecord_station, State.setLock_station]
    exact h.ok.restated h.attached h.notReleasing (by simp [hs]) (by simp [hc, holdsForm]) rfl (by simp)
  · rw [State.doneRecord_station, State.modStation_eq, State.station_setStation_self]
    exact ⟨h.ok.link, h.ok.records, h.ok.form, h.ok.held, h.ok.lock, h.ok.queue, h.ok.report, h.ok.release⟩
  all_goals exact h.ok

theorem takeUnlock : StationOk ((s.takeUnlock i g).station i) := by
  unfold State.takeUnlock
  split
  · rename_i hc
    exact h.openBlank hc
  · refine h.ok.act Work.unlock_keeps (fun c hc => ?_) (fun hs c => ?_)
    · rcases (s.openWork i c).unlock_seat with same | ⟨_, opened⟩
      · rw [same]
        exact h.ok.openWork_sound hc
      · exact opened.sound
    · have composing : (s.openWork i c).st.state = .composing := hs
      simp only [Work.unlock, composing]
  · exact h.ok

theorem takeResetModified : StationOk ((s.takeResetModified i g).station i) := by
  unfold State.takeResetModified
  split
  · rename_i c hc
    rw [State.doneRecord_station, State.modStation_eq, State.station_setStation_self]
    exact h.ok.withForm (by simp [hc])
  · exact h.ok

theorem takeRead : StationOk ((s.takeRead i g).station i) := by
  unfold State.takeRead
  split
  · rename_i c hc
    dsimp only
    split
    · rename_i hs _
      have entry : (s.station i).state = .entry := hs
      rw [State.setLock_station]
      exact h.ok.restated h.attached h.notReleasing (by simp [entry]) (by simp [hc, holdsForm])
        (by simp [lockAdmitted]) (by simp)
    · exact h.ok
  · exact h.ok

/-- R44: a RELEASE leaves RELEASING with its slot, or BLANK. -/
theorem takeRelease : StationOk ((s.takeRelease i g).station i) := by
  cases hc : (s.station i).ctx with
  | none =>
    unfold State.takeRelease
    rw [hc]
    exact h.openBlank hc
  | some c =>
    rw [State.takeRelease_some (by simp [hc])]
    split
    · have station : (s.released i g).station i = (s.station i).released := by simp [State.released, State.station]
      rw [station]
      refine ⟨⟨nofun, fun e => absurd e h.linked⟩, nofun, fun e => ?_, nofun, rfl, fun _ => rfl,
        fun e => absurd rfl e, ⟨fun e => absurd rfl e, nofun⟩⟩
      rcases e with e | e | e <;> cases e
    · have station : (s.beginReleasing i g).station i = (s.station i).releasing g := by
        simp [State.beginReleasing, State.station]
      rw [station]
      refine ⟨⟨nofun, fun e => absurd e h.linked⟩, nofun, fun e => ?_, nofun, rfl, fun _ => rfl,
        fun e => absurd rfl e, ⟨fun _ => rfl, fun _ => nofun⟩⟩
      rcases e with e | e | e <;> cases e

/-- A record taken leaves the station as its state says. -/
theorem takeRecord (q : Queued) : StationOk ((s.takeRecord i q).station i) := by
  unfold State.takeRecord
  split
  · exact h.takeCompose _
  · exact h.takeFill _ _ _
  · exact h.takeNote _ _
  · exact h.takeLock
  · exact h.takeUnlock
  · exact h.takeResetModified
  · exact h.takeRead
  · exact h.takeRelease

end Station.Takes

/-! ### Every step -/

/-- An act at one station leaves the law of the stations, if it leaves that station within it. -/
theorem StationLaw.of_one {t : State} (h : StationLaw s) (ho : ∀ j, j ≠ i → t.station j = s.station j)
    (hi : StationOk (t.station i)) : StationLaw t := by
  refine stationLaw_iff.mpr fun j => ?_
  rcases eq_or_ne j i with rfl | hne
  · exact hi
  · rw [ho j hne]
    exact stationLaw_iff.mp h j

theorem Undisturbed.stationLaw {t : State} (k : Undisturbed s t) (h : StationLaw s) : StationLaw t :=
  stationLaw_iff.mpr fun j => (stationLaw_iff.mp h j).alike (k.stations j)

/-- R24, R28, R43, R45: the law of the station states outlasts every act. -/
theorem stationLaw_outlasts : Outlasts StationLaw where
  undisturbed := Undisturbed.stationLaw
  joined {s i} q h hs _ := by
    have ok := stationLaw_iff.mp h i
    refine h.of_one (State.modStation_only s _ (by intro _; rfl)).stations ?_
    rw [State.modStation_eq, State.station_setStation_self]
    exact ⟨ok.link, fun e => absurd e hs, ok.form, ok.held, ok.lock, ok.queue, ok.report, ok.release⟩
  taken {s i q rest} h hq hr := by
    have ok := stationLaw_iff.mp h i
    have attached : (s.station i).state ≠ .detached := fun e => by simp [ok.records e] at hq
    have only := (State.modStation_only (i := i) s (fun st => { st with records := rest }) (by intro _; rfl)).trans
      (State.takeRecord_only _ q)
    have dequeued : ((s.modStation i fun st => { st with records := rest }).station i).Takes := by
      rw [State.modStation_eq, State.station_setStation_self]
      exact ⟨⟨ok.link, fun e => absurd e attached, ok.form, ok.held, ok.lock, ok.queue, ok.report, ok.release⟩,
        attached, hr⟩
    exact h.of_one only.stations (dequeued.takeRecord q)
  released {s i} h hs := h.of_one s.endReleasing_only.stations ((stationLaw_iff.mp h i).endReleasing hs)
  composed {s i} h hs := h.of_one s.endComposing_only.stations ((stationLaw_iff.mp h i).endComposing hs)
  keyed {s i} k h := h.of_one (s.deliverKey_only k).stations ((stationLaw_iff.mp h i).deliverKey k)
  checked {s i} h := h.of_one s.lineCheckError_only.stations (stationLaw_iff.mp h i).lineCheckError
  thawed {s i} h hl := by
    have ok := stationLaw_iff.mp h i
    have notComposing : (s.station i).state ≠ .composing := fun e => by
      have := ok.lock
      rw [e, hl] at this
      cases this
    exact h.of_one (s.act_only _ Work.openKeyboard_keeps).stations (ok.openKeyboard notComposing)
  attached {s i} window h _ := h.of_one (i := i) (fun j hj => State.station_setStation_ne s _ hj) (by
    rw [State.station_setStation_self]
    exact attachedRecord_ok window)
  detached {s i} h := by
    unfold State.clearStation
    extract_lets dropped purged
    have same : Undisturbed dropped purged := ((dropped.detachDeferred_undisturbed.trans
      (State.detachSnapshot_undisturbed _)).trans (State.detachAttention_undisturbed _)).trans
      (State.detachQueue_undisturbed _)
    refine stationLaw_iff.mpr fun j => ?_
    rw [State.station_setStation]
    split
    · exact detachedRecord_ok
    · rename_i hj
      have ok := stationLaw_iff.mp h j
      rw [← s.dropContext_only.stations j hj] at ok
      exact ok.alike (same.stations j)
  emptied {t} hs _ := stationLaw_iff.mpr fun j => by
    rw [hs]
    exact detachedRecord_ok

/-- Settles O60: the walk over the commands, for the law of the station states. -/
theorem stepKeepsStationStates : Obligations.StepKeepsStationStates :=
  fun _ _ h ht => stationLaw_outlasts.step h ht

end Sys2Proof.Machine

/-! PROOFS. The record queue (R34, R35) and the disposal of a keystroke (R25, R36). -/

namespace Sys2Proof.Machine

variable {s : State} {g : GenId} {i : StationId}

/-! ### A record that must wait (R34, R35) -/

/-- R35: a RELEASING or frozen station takes no record. -/
theorem State.takeWaiting_held (h : (s.station i).state = .releasing ∨ s.frozen i = true) : s.takeWaiting i = s := by
  unfold State.takeWaiting
  have stops : ((s.station i).state == .releasing || s.frozen i) = true := by simpa using h
  cases hq : (s.station i).records with
  | nil => rfl
  | cons q rest => simp only [List.length_cons, State.takeUpTo, hq, if_pos stops]

/-- R34: a record for such a station joins its queue. -/
theorem State.arriveStation_held (ha : (s.station i).state ≠ .detached) (room : (s.station i).records.length < 4)
    (h : (s.station i).state = .releasing ∨ s.frozen i = true) (r : StationRecord) :
    s.arriveStation i r g = s.modStation i fun st => { st with records := st.records ++ [⟨g, r⟩] } := by
  have fits : ¬Config.recordQueue ≤ (s.station i).records.length := Nat.not_le.mpr room
  unfold State.arriveStation
  rw [if_neg (by simpa using ha), if_neg fits]
  refine State.takeWaiting_held ?_
  rw [State.modStation_eq, State.station_setStation_self]
  exact h

/-- R143: a station is frozen by its ATTENTION or by its SNAPSHOT record. -/
theorem State.frozen_iff : s.frozen i = true ↔
    s.attention[i].isSome = true ∨ ∃ h : GenId, s.general[h] = .occupied (i.val + 1) .snapshot := by
  simp [State.frozen, State.snapshotSlot, genIds, stationNumber]

/-- Settles O8: the queue of a station that takes nothing gains the record; the rest is what each command stands for. -/
theorem recordJoinsOrIsTaken : Obligations.RecordJoinsOrIsTaken := by
  intro s g i h attached
  refine ⟨fun r room held => ?_, State.frozen_iff, fun _ => rfl, fun _ _ => rfl, fun _ => rfl, fun _ _ => rfl,
    fun _ => rfl, fun _ _ => rfl, fun _ => rfl, fun _ _ => rfl, fun _ _ => rfl, rfl, rfl, rfl, rfl, rfl⟩
  have arrived : exec (.recordJoinsQueue i r) s = .next (s.hunting.arriveStation i r g) :=
    congrArg Host.Outcome.next (State.arrive_receiving h fun s g => s.arriveStation i r g)
  rw [arrived, State.arriveStation_held (s := s.hunting) attached room held]
  rfl

/-! ### Work that ends without event and without attention -/

theorem Work.noteIndicator_eq (w new : Work) :
    ∃ p, w.noteIndicator new = { new with st := { new.st with paint := p } } := by
  unfold Work.noteIndicator
  split
  · exact ⟨_, rfl⟩
  · exact ⟨_, rfl⟩

/-- R69: RESET at a station with nothing typed ahead: the lock of R27, and only the adjusted notice and the paint state. -/
theorem Work.resetError_idle {w : Work} (hs : w.st.state = .entry) (hq : w.st.typeAhead = [])
    (ho : w.st.overrun = false) : ∃ p, w.resetError = { w with
      st := { w.st with lock := if w.snapshot then .snapshot else .none, paint := p }
      c := { w.c with adjusted := false } } := by
  obtain ⟨p, adjusted⟩ := w.noteIndicator_eq { w with c := { w.c with adjusted := false } }
  have locked : ∀ l, ∃ p, (w.setAdjusted false).setLock .entry l = { w with
      st := { w.st with lock := l, paint := p }, c := { w.c with adjusted := false } } := fun l => by
    obtain ⟨q, locked⟩ := (w.setAdjusted false).noteIndicator_eq { w.setAdjusted false with
      st := { (w.setAdjusted false).st with state := .entry, lock := l } }
    refine ⟨q, locked.trans ?_⟩
    rw [Work.setAdjusted, adjusted, ← hs]
  have snapshot : (w.setAdjusted false).snapshot = w.snapshot := by rw [Work.setAdjusted, adjusted]
  unfold Work.resetError Work.openKeyboard
  rw [snapshot]
  split
  · exact locked _
  · obtain ⟨p, opened⟩ := locked .none
    refine ⟨p, ?_⟩
    rw [opened]
    simp only [Work.dealWithTypeAhead, ho, hq, Work.drain, Work.setTypeAhead, Bool.false_eq_true, if_false]

/-- Work that moves no row, raises no POOL LOW and latches nothing ends in its station alone. -/
theorem State.closeWork_quiet {w : Work} (hf : w.freeRows = s.freeRows) (hp : w.poolLow = false)
    (hl : w.latched = none) : s.closeWork i w = s.setStation i { w.st with ctx := some w.c } := by
  unfold State.closeWork
  rw [hp, hl]
  unfold State.storeWork
  rw [hf]
  rfl

/-! ### What becomes of a keystroke (R25, R36) -/

/-- R25: the states and locks under which a keystroke is queued. -/
def Station.Queues (st : Station) : Prop :=
  st.state = .composing ∨ st.state = .held ∨ st.state = .attention ∨ st.state = .entry ∧ st.lock = .snapshot

theorem State.deliverKey_queues (h : (s.station i).Queues) (k : Byte) :
    State.deliverKey i s k = s.joinTypeAhead i k := by
  unfold State.deliverKey
  rcases h with hs | hs | hs | ⟨hs, hl⟩
  · rw [hs]
  · rw [hs]
  · rw [hs]
  · rw [hs, hl]

theorem State.deliverKey_blank (hs : (s.station i).state = .blank) (k : Byte) :
    State.deliverKey i s k = if isAttentionKey k then s.latchBlank i k else s := by
  unfold State.deliverKey
  rw [hs]

theorem State.deliverKey_error {code : ErrorCode} (hs : (s.station i).state = .entry)
    (hl : (s.station i).lock = .operatorError code) (k : Byte) :
    State.deliverKey i s k = if k = 0xA7 then s.act i Work.resetError else s := by
  unfold State.deliverKey
  rw [hs, hl]
  rfl

theorem State.deliverKey_ignored (hs : (s.station i).state = .releasing ∨ (s.station i).state = .detached) (k : Byte) :
    State.deliverKey i s k = s := by
  unfold State.deliverKey
  rcases hs with hs | hs <;> rw [hs]

/-- R36: an event does not look at the stations. -/
theorem State.raise_setStation (s : State) (i : StationId) (st : Station) (e : Event) :
    (s.setStation i st).raise e = (s.raise e).setStation i st := by
  obtain ⟨event, waiting⟩ := State.raise_slot_congr (s := s) (t := s.setStation i st) e rfl rfl rfl rfl
  rw [State.raise_eq (s.setStation i st), event, waiting, State.raise_eq s]
  rfl

/-- R36: the three outcomes of the type-ahead queue. -/
theorem State.joinTypeAhead_eq (s : State) (i : StationId) (k : Byte) : s.joinTypeAhead i k =
    if (s.station i).typeAhead.length < 32 then
      s.setStation i { s.station i with typeAhead := (s.station i).typeAhead ++ [k] }
    else if (s.station i).overrun then s
    else (s.raise (.typeAheadOverrun i)).setStation i { s.station i with overrun := true } := by
  rw [← State.raise_setStation]
  rfl

/-- R137: an attention latched at a BLANK station changes the station and the attention slot. -/
theorem State.latchBlank_eq (s : State) (i : StationId) (k : Byte) : s.latchBlank i k = { s with
    stations := s.stations.set i ((s.latchBlank i k).station i), attention := s.attention.set i (some k)
    waiting := s.waiting ++ [.attention i] } := by
  rw [State.latchBlank_station, State.setLock_eq, State.station_setStation_self]
  unfold State.latchBlank
  rw [State.setLock_eq]
  rfl

/-- R69: RESET at a station with nothing typed ahead. -/
theorem State.resetError_idle {c : Context} (hs : (s.station i).state = .entry) (hc : (s.station i).ctx = some c)
    (hq : (s.station i).typeAhead = []) (ho : (s.station i).overrun = false) :
    ∃ p, s.act i Work.resetError = s.setStation i { s.station i with
      lock := if (s.snapshotSlot i).isSome then .snapshot else .none
      ctx := some { c with adjusted := false }, paint := p } := by
  obtain ⟨p, reset⟩ := Work.resetError_idle (w := s.openWork i c) hs hq ho
  refine ⟨p, ?_⟩
  rw [State.act, hc]
  dsimp only
  rw [reset, State.closeWork_quiet rfl rfl rfl]
  rfl

/-- Settles O41: the disposal by state and lock, and the three outcomes of the type-ahead queue. -/
theorem keystrokeDisposal : Obligations.KeystrokeDisposal := by
  intro s i k
  refine ⟨fun hs => State.deliverKey_ignored hs k, fun hs hk => ?_, fun hs hl hk => ?_, fun code hs hl hk => ?_,
    fun code c hs hl hc hq ho hk => ?_, fun hq hlen => ?_, fun hq hlen ho => ?_, fun hq hlen ho => ?_⟩
  · rw [State.deliverKey_blank hs, if_neg (by simp [hk])]
  · rw [State.deliverKey_blank hs, if_pos hk]
    have frame := State.latchBlank_eq s i k
    have attention : (s.latchBlank i k).attention = s.attention.set i (some k) := by rw [frame]
    have waiting : (s.latchBlank i k).waiting = s.waiting ++ [.attention i] := by rw [frame]
    refine ⟨attention, waiting, ?_, ?_⟩
    · rw [State.latchBlank_station]
      exact State.setLock_station s i _ _
    · rw [attention, waiting]
      exact frame
  · rw [State.deliverKey_error hs hl, if_neg hk]
  · rw [State.deliverKey_error hs hl, if_pos hk]
    obtain ⟨p, reset⟩ := State.resetError_idle hs hc hq ho
    rw [reset, State.station_setStation_self]
    exact ⟨rfl, rfl⟩
  · rw [State.deliverKey_queues hq, State.joinTypeAhead_eq, if_pos hlen]
    rfl
  · rw [State.deliverKey_queues hq, State.joinTypeAhead_eq, if_neg (Nat.not_lt.mpr hlen), if_neg (by simp [ho])]
    simp [State.setStation]
  · rw [State.deliverKey_queues hq, State.joinTypeAhead_eq, if_neg (Nat.not_lt.mpr hlen), if_pos ho]

end Sys2Proof.Machine

/-! PROOFS. The values of a COMPOSE: which entry fails, why, and with which index (R40). -/

namespace Sys2Proof.Machine

/-! ### One value (R40) -/

section
variable {defs : List FieldDef} {x : ValueEntry} {reason : Reason}

/-- R40: why a value entry fails: it names no settable definition, or carries a text that is bad for the one it names. -/
inductive BadValue (defs : List FieldDef) (x : ValueEntry) : Reason → Prop
  | field (h : ∀ d, defs.find? (fun d => d.id == x.id) = some d → isDerived d = true) : BadValue defs x .field
  | format {d : FieldDef} (hd : defs.find? (fun d => d.id == x.id) = some d) (hs : isDerived d = false)
      (ht : hostText d x.text = none) : BadValue defs x .format

/-- The definition a value entry names stands at the index it is looked up by. -/
theorem findIdx?_of_find? {p : FieldDef → Bool} {d : FieldDef} (h : defs.find? p = some d) :
    ∃ j, defs.findIdx? p = some j ∧ defs[j]? = some d := by
  rw [List.find?_eq_bind_findIdx?_getElem?] at h
  exact Option.bind_eq_some_iff.mp h

/-- R40: an entry that names a settable definition is the entry of its index. -/
theorem applyValue_of_find {d : FieldDef} (hd : defs.find? (fun d => d.id == x.id) = some d) (hs : isDerived d = false)
    (insts : List FieldInst) : (hostText d x.text = none → applyValue defs insts x = .error .format)
      ∧ ∀ w, hostText d x.text = some w →
        ∃ j, applyValue defs insts x = .ok (modifyNth insts j fun y => setByHost y w) := by
  obtain ⟨j, hj, hdj⟩ := findIdx?_of_find? hd
  have settable : ¬(!hostSettable d) = true := by simp [hostSettable, hs]
  refine ⟨fun ht => ?_, fun w hw => ⟨j, ?_⟩⟩
  · simp only [applyValue, hj, hdj, if_neg settable, ht]
  · simp only [applyValue, hj, hdj, if_neg settable, hw]

theorem BadValue.applyValue (h : BadValue defs x reason) (insts : List FieldInst) :
    applyValue defs insts x = .error reason := by
  cases h with
  | field h =>
    unfold Machine.applyValue
    split
    · rfl
    split
    · rfl
    · rename_i j hj _ d hd
      have found : defs.find? (fun d => d.id == x.id) = some d := by
        rw [List.find?_eq_bind_findIdx?_getElem?, hj]
        exact hd
      simp [hostSettable, h d found]
  | format hd hs ht =>
    exact (applyValue_of_find hd hs insts).1 ht

theorem GoodValue.applyValue (h : GoodValue defs x) (insts : List FieldInst) :
    ∃ out, applyValue defs insts x = .ok out := by
  obtain ⟨d, hd, hs, ht⟩ := h
  obtain ⟨w, hw⟩ := Option.isSome_iff_exists.mp ht
  obtain ⟨j, applied⟩ := (applyValue_of_find hd hs insts).2 w hw
  exact ⟨_, applied⟩

/-! ### The values of an entry list, in order (R40) -/

/-- R40: good values lead on to the values behind them. -/
theorem applyValues_append {before : List ValueEntry} (h : ∀ y ∈ before, GoodValue defs y) (insts : List FieldInst)
    (rest : List ValueEntry) : ∃ out, applyValues defs insts (before ++ rest) = applyValues defs out rest := by
  induction before generalizing insts with
  | nil => exact ⟨insts, rfl⟩
  | cons y before ih =>
    obtain ⟨good, others⟩ := List.forall_mem_cons.mp h
    obtain ⟨next, applied⟩ := good.applyValue insts
    obtain ⟨out, reached⟩ := ih others next
    exact ⟨out, by rw [List.cons_append, applyValues, applied]; exact reached⟩

theorem applyValues_bad {before after : List ValueEntry} (h : ∀ y ∈ before, GoodValue defs y)
    (bad : BadValue defs x reason) (insts : List FieldInst) :
    applyValues defs insts (before ++ x :: after) = .error reason := by
  obtain ⟨out, reached⟩ := applyValues_append h insts (x :: after)
  rw [reached, applyValues, bad.applyValue]

theorem applyValues_good {l : List ValueEntry} (h : ∀ y ∈ l, GoodValue defs y) (insts : List FieldInst) :
    ∃ out, applyValues defs insts l = .ok out := by
  obtain ⟨out, reached⟩ := applyValues_append h insts []
  exact ⟨out, by rwa [List.append_nil] at reached⟩

/-- R40 step 3: good fixed values lead on to those behind them, with the numbers that follow. -/
theorem applyFixed_append {before : List ValueEntry} (h : ∀ y ∈ before, GoodValue defs y) (k : Nat)
    (insts : List FieldInst) (rest : List ValueEntry) :
    ∃ out, applyFixed defs k insts (before ++ rest) = applyFixed defs (k + before.length) out rest := by
  induction before generalizing insts k with
  | nil => exact ⟨insts, rfl⟩
  | cons y before ih =>
    obtain ⟨good, others⟩ := List.forall_mem_cons.mp h
    obtain ⟨next, applied⟩ := good.applyValue insts
    obtain ⟨out, reached⟩ := ih others (k + 1) next
    refine ⟨out, ?_⟩
    rw [List.cons_append, applyFixed, applied, List.length_cons, Nat.add_comm before.length 1, ← Nat.add_assoc k]
    exact reached

theorem applyFixed_bad {before after : List ValueEntry} (h : ∀ y ∈ before, GoodValue defs y)
    (bad : BadValue defs x reason) (k : Nat) (insts : List FieldInst) :
    applyFixed defs k insts (before ++ x :: after) = .error ⟨reason, 3, some (k + before.length)⟩ := by
  obtain ⟨out, reached⟩ := applyFixed_append h k insts (x :: after)
  rw [reached, applyFixed, bad.applyValue]

theorem applyFixed_good {l : List ValueEntry} (h : ∀ y ∈ l, GoodValue defs y) (k : Nat) (insts : List FieldInst) :
    ∃ out, applyFixed defs k insts l = .ok out := by
  obtain ⟨out, reached⟩ := applyFixed_append h k insts []
  exact ⟨out, by rwa [List.append_nil] at reached⟩

end

/-! ### Row entries (R40) -/

section
variable {defs : List FieldDef} {x : RowEntry} {built : List RowRec} {reason : Reason}

/-- R40: rows built from row entries bear their tags. -/
def TagsOf (l : List RowEntry) (built : List RowRec) : Prop := built.map RowRec.tag = l.map fun x => tagOf x.tag

theorem tagOf_eq_some {a b : Nat} : tagOf a = some b ↔ a = b ∧ b ≠ 0 := by
  unfold tagOf
  split
  · rename_i h
    subst h
    exact ⟨nofun, fun ⟨e, h⟩ => absurd e.symm h⟩
  · rename_i h
    exact ⟨fun e => by cases e; exact ⟨rfl, h⟩, fun ⟨e, _⟩ => by rw [e]⟩

/-- R40: a tag repeats one given before when an earlier entry carries it. -/
theorem TagsOf.repeats {l : List RowEntry} (h : TagsOf l built) (tag : Nat) :
    tagRepeats tag built = true ↔ tag ≠ 0 ∧ ∃ y ∈ l, y.tag = tag := by
  have given : (∃ r ∈ built, r.tag = some tag) ↔ ∃ y ∈ l, tagOf y.tag = some tag := by
    rw [← List.mem_map, ← List.mem_map (f := fun x : RowEntry => tagOf x.tag), h]
  simp only [tagRepeats, Bool.and_eq_true, bne_iff_ne, List.any_eq_true, beq_iff_eq, given, tagOf_eq_some]
  grind

theorem composeRow_repeats {insts : List FieldInst} (ht : tagRepeats x.tag built = true)
    (hv : applyValues defs (defs.map initialInst) x.values = .ok insts) : composeRow defs built x = .error .row := by
  simp only [composeRow, ht, hv]

theorem composeRow_bad (ht : tagRepeats x.tag built = false)
    (hv : applyValues defs (defs.map initialInst) x.values = .error reason) :
    composeRow defs built x = .error reason := by
  simp only [composeRow, ht, hv]

theorem composeRow_good {insts : List FieldInst} (ht : tagRepeats x.tag built = false)
    (hv : applyValues defs (defs.map initialInst) x.values = .ok insts) :
    composeRow defs built x = .ok { insts := insts, tag := tagOf x.tag, operatorCreated := false } := by
  simp only [composeRow, ht, hv]

/-- The tags given (0 = none) of a list of row entries. -/
def givenTags (l : List RowEntry) : List Nat := (l.map RowEntry.tag).filter fun t => t != 0

theorem givenTags_append (l m : List RowEntry) : givenTags (l ++ m) = givenTags l ++ givenTags m := by
  simp [givenTags]

/-- R40 step 4: good row entries without a repeated tag lead on to those behind them, with the numbers that follow. -/
theorem composeRows_append {before : List RowEntry} (good : ∀ r ∈ before, ∀ y ∈ r.values, GoodValue defs y)
    {done : List RowEntry} (tags : TagsOf done built) (nodup : (givenTags (done ++ before)).Nodup) (k : Nat)
    (rest : List RowEntry) : ∃ out, TagsOf (done ++ before) out
      ∧ composeRows defs k built (before ++ rest) = composeRows defs (k + before.length) out rest := by
  induction before generalizing done built k with
  | nil => exact ⟨built, by rwa [List.append_nil], rfl⟩
  | cons x before ih =>
    obtain ⟨values, good⟩ := List.forall_mem_cons.mp good
    obtain ⟨insts, hv⟩ := applyValues_good values (defs.map initialInst)
    have fresh : tagRepeats x.tag built = false := by
      rw [← Bool.not_eq_true, tags.repeats]
      rintro ⟨h0, y, hy, e⟩
      rw [givenTags_append] at nodup
      refine (List.nodup_append.mp nodup).2.2 x.tag ?_ x.tag ?_ rfl
      · exact List.mem_filter.mpr ⟨List.mem_map.mpr ⟨y, hy, e⟩, by simpa using h0⟩
      · exact List.mem_filter.mpr ⟨List.mem_map.mpr ⟨x, List.mem_cons_self, rfl⟩, by simpa using h0⟩
    have extended : TagsOf (done ++ [x]) (built ++ [{ insts := insts, tag := tagOf x.tag, operatorCreated := false }]) := by
      unfold TagsOf at tags ⊢
      simp [tags]
    obtain ⟨out, hout, reached⟩ := ih good extended (by simpa using nodup) (k + 1)
    refine ⟨out, by simpa using hout, ?_⟩
    rw [List.cons_append, composeRows, composeRow_good fresh hv, List.length_cons, Nat.add_comm before.length 1,
      ← Nat.add_assoc k]
    exact reached

/-- R40 step 4: the first row entry that fails gives the reason and the index. -/
theorem composeRows_bad {before after : List RowEntry} (good : ∀ r ∈ before, ∀ y ∈ r.values, GoodValue defs y)
    (nodup : (givenTags before).Nodup)
    (bad : ∀ built, TagsOf before built → composeRow defs built x = .error reason) (k : Nat) :
    composeRows defs k [] (before ++ x :: after) = .error ⟨reason, 4, some (k + before.length)⟩ := by
  obtain ⟨out, tags, reached⟩ := composeRows_append good (done := []) (built := []) rfl nodup k (x :: after)
  rw [reached, composeRows, bad out tags]

theorem composeRows_good {l : List RowEntry} (good : ∀ r ∈ l, ∀ y ∈ r.values, GoodValue defs y)
    (nodup : (givenTags l).Nodup) (k : Nat) : ∃ out, composeRows defs k [] l = .ok out := by
  obtain ⟨out, -, reached⟩ := composeRows_append good (done := []) (built := []) rfl nodup k []
  exact ⟨out, by rwa [List.append_nil] at reached⟩

end

/-! ### The form of a COMPOSE (R40) -/

section
variable {v : TemplateVersion} {c : ComposeRec} {f : ComposeFailure}

theorem buildContext_fixed_error (e : EntryId)
    (h : applyFixed v.fixed 1 (v.fixed.map initialInst) c.fixed = .error f) : buildContext v e c = .error f := by
  unfold buildContext
  rw [h]

theorem buildContext_rows_error (e : EntryId) (hf : ∀ y ∈ c.fixed, GoodValue v.fixed y)
    (h : composeRows v.rowDefs (c.fixed.length + 1) [] c.rows = .error f) : buildContext v e c = .error f := by
  obtain ⟨fixed, applied⟩ := applyFixed_good hf 1 (v.fixed.map initialInst)
  unfold buildContext
  rw [applied]
  dsimp only
  rw [h]

/-- R40 step 3: the first fixed entry that fails. -/
theorem buildContext_fixed_bad {before after : List ValueEntry} {x : ValueEntry} {reason : Reason} (e : EntryId)
    (hc : c.fixed = before ++ x :: after) (good : ∀ y ∈ before, GoodValue v.fixed y) (bad : BadValue v.fixed x reason) :
    buildContext v e c = .error ⟨reason, 3, some (before.length + 1)⟩ := by
  refine buildContext_fixed_error e ?_
  rw [hc, applyFixed_bad good bad, Nat.add_comm]

/-- R40 step 4: the first row entry that fails. -/
theorem buildContext_rows_bad {before after : List RowEntry} {x : RowEntry} {reason : Reason} (e : EntryId)
    (hc : c.rows = before ++ x :: after) (hf : ∀ y ∈ c.fixed, GoodValue v.fixed y)
    (good : ∀ r ∈ before, ∀ y ∈ r.values, GoodValue v.rowDefs y) (nodup : (givenTags before).Nodup)
    (bad : ∀ built, TagsOf before built → composeRow v.rowDefs built x = .error reason) :
    buildContext v e c = .error ⟨reason, 4, some (c.fixed.length + before.length + 1)⟩ := by
  refine buildContext_rows_error e hf ?_
  rw [hc, composeRows_bad good nodup bad, Nat.add_right_comm]

/-- R40: good entries build a form. -/
theorem buildContext_good (e : EntryId) (hf : ∀ y ∈ c.fixed, GoodValue v.fixed y)
    (hr : ∀ r ∈ c.rows, ∀ y ∈ r.values, GoodValue v.rowDefs y) (nodup : (givenTags c.rows).Nodup) :
    ∃ built, buildContext v e c = .ok built := by
  obtain ⟨fixed, applied⟩ := applyFixed_good hf 1 (v.fixed.map initialInst)
  obtain ⟨rows, composed⟩ := composeRows_good hr nodup (c.fixed.length + 1)
  unfold buildContext
  rw [applied]
  dsimp only
  rw [composed]
  exact ⟨_, rfl⟩

end

end Sys2Proof.Machine

/-! PROOFS. A COMPOSE that fails (R38, R39, R42). -/

namespace Sys2Proof.Machine

variable {s : State} {i : StationId} {g : GenId} {e : EntryId} {v : TemplateVersion} {c : ComposeRec}

/-- R35: a COMPOSE for a station that takes records at once. -/
theorem exec_compose (h : Receiving s g) (hr : Ready s i) :
    exec (.compose i c) s = .next (s.hunting.takeCompose i g c) := by
  have arrived : exec (.compose i c) s = .next (s.hunting.arriveStation i (.compose c) g) :=
    congrArg Host.Outcome.next (State.arrive_receiving h fun s g => s.arriveStation i (.compose c) g)
  rw [arrived, State.arriveStation_ready (s := s.hunting) hr]
  rfl

/-! ### The version a COMPOSE names (R38, R39) -/

/-- The use count of a version says nothing of the forms built on it. -/
theorem buildContext_useCount (n : Nat) : buildContext { v with useCount := n } e c = buildContext v e c := rfl

/-- R39: the LIVE version a COMPOSE names stays in its entry, but for its use count. -/
theorem State.vacated_version (h : StoreLaw s) (hv : s.table[e] = some v) (hl : v.status = .live) :
    ∃ n, (s.vacated i e).versionAt e = { v with useCount := n } := by
  obtain ⟨n, kept⟩ := (FormRule.storeOnly_holds.mpr h).dropContext_live (i := i) hv hl
  refine ⟨n + 1, State.versionAt_of_some ?_⟩
  rw [State.vacated_table, State.raiseUse_eq kept, State.setEntry_getElem, if_pos rfl]

/-- R38 to R41: a COMPOSE of a LIVE version, by the checks of its steps. -/
theorem State.takeCompose_live (h : StoreLaw s) (hv : s.table[e] = some v) (hid : v.id = c.id) (hl : v.status = .live) :
    (v.group.maxRows < c.rows.length → s.takeCompose i g c = (s.vacated i e).composeFails i g e 0 ⟨.row, 2, none⟩)
    ∧ (c.rows.length ≤ v.group.maxRows → s.freeRows + rowsHeld (s.station i) < c.rows.length →
        s.takeCompose i g c = (s.vacated i e).composeFails i g e 0 ⟨.pool, 2, none⟩)
    ∧ (c.rows.length ≤ v.group.maxRows → c.rows.length ≤ s.freeRows + rowsHeld (s.station i) →
        (∀ f, buildContext v e c = .error f → s.takeCompose i g c
          = ((s.vacated i e).takeRows c.rows.length).composeFails i g e c.rows.length f)
        ∧ ∀ built, buildContext v e c = .ok built → s.takeCompose i g c
          = ((s.vacated i e).takeRows c.rows.length).composeSucceeds i g c built) := by
  obtain ⟨-, oneLive, -, -⟩ := id h
  obtain ⟨n, version⟩ := State.vacated_version (i := i) h hv hl
  have group : ((s.vacated i e).versionAt e).group = v.group := by rw [version]
  have form : buildContext ((s.vacated i e).versionAt e) e c = buildContext v e c := by
    rw [version, buildContext_useCount]
  rw [State.takeCompose_of_live (hid ▸ State.liveEntry_of_live oneLive hv hl)]
  dsimp only
  rw [group, form, State.vacated_freeRows]
  refine ⟨fun rows => if_pos rows, fun rows pool => ?_, fun rows pool => ⟨fun f hf => ?_, fun built hb => ?_⟩⟩
  · rw [if_neg (Nat.not_lt.mpr rows), if_pos pool]
  · rw [if_neg (Nat.not_lt.mpr rows), if_neg (Nat.not_lt.mpr pool), hf]
  · rw [if_neg (Nat.not_lt.mpr rows), if_neg (Nat.not_lt.mpr pool), hb]

/-! ### What a failure leaves (R42) -/

/-- R42: the station a failed COMPOSE leaves. -/
theorem Station.vacated_composeFailed (st : Station) : st.vacated.composeFailed = { st with
    state := .blank, lock := .none, ctx := none, typeAhead := [], overrun := false, unlockAtEnd := false
    reportSlot := none, paint := st.paint.cleared .none } := by
  unfold Station.vacated Station.composeFailed Station.formless Paint.setFull Paint.cleared
  cases st.ctx <;> rfl

/-- R42: what a COMPOSE that fails for `f` leaves: station `i` BLANK without a form, its rows returned, and the
exception with its step and index. -/
def LeftBlank (s t : State) (i : StationId) (g : GenId) (f : ComposeFailure) : Prop :=
  Confined s t i g
    ∧ t.station i = { s.station i with
        state := .blank, lock := .none, ctx := none, typeAhead := [], overrun := false, unlockAtEnd := false
        reportSlot := none, paint := (s.station i).paint.cleared .none }
    ∧ t.freeRows = s.freeRows + rowsHeld (s.station i)
    ∧ t.general[g] = .occupied (i.val + 1) (stationException i 0x20 f.reason (some f.step) f.index)
    ∧ t.waiting.getLast? = some (.general g)
    ∧ ∀ h, (s.station i).reportSlot = some h → t.general[h] = .free

/-- R42, R43: a COMPOSE that fails when the old form is gone, having taken `n` rows of those free then. -/
theorem ComposeFailure.leftBlank {t : State} {n : Nat} (f : ComposeFailure)
    (taken : s.hunting.takeCompose i g c = t.composeFails i g e n f)
    (station : t.station i = (s.station i).vacated) (rows : t.freeRows + n = s.freeRows + rowsHeld (s.station i))
    (general : t.general = s.reportFreed i) (apart : (s.station i).reportSlot ≠ some g) :
    LeftBlank s (s.hunting.takeCompose i g c) i g f := by
  have slots : ∀ h : GenId, (s.hunting.takeCompose i g c).general[h] = if h = g then
      .occupied (stationNumber i) (stationException i 0x20 f.reason (some f.step) f.index)
      else if some h = (s.station i).reportSlot then .free else s.general[h] := fun h => by
    rw [taken, State.composeFails_general, getElem_set_fin, general, State.reportFreed_getElem]
  refine ⟨(State.takeCompose_only s.hunting g c).confined fun h hg hr => ?_, ?_, ?_, ?_, ?_, fun h hr => ?_⟩
  · rw [slots, if_neg hg, if_neg hr]
  · rw [taken, State.composeFails_station, station, Station.vacated_composeFailed]
  · rw [taken, State.composeFails_freeRows, rows]
  · rw [slots, if_pos rfl]
    rfl
  · rw [taken, State.composeFails_last]
  · have other : h ≠ g := fun e => apart (e ▸ hr)
    rw [slots, if_neg other, if_pos hr.symm]

/-- Settles O31: the checks of steps 1 and 2 and the entries of steps 3 and 4, in order. -/
theorem composeFailureLeavesBlank : Obligations.ComposeFailureLeavesBlank := by
  refine ⟨fun s g i c h ready law => ⟨fun retired => ?_, fun e v hv hid hl apart => ?_⟩, fun v e c =>
    ⟨fun before x after hc good => ⟨fun bad => ?_, fun d hd hs ht => ?_⟩, fun before x after hc hf good nodup =>
      ⟨fun values tag given => ?_, fun b y a hx first fresh => ?_⟩, fun hf hr nodup => buildContext_good e hf hr nodup⟩⟩
  · rw [exec_compose h ready, State.takeCompose_of_none (s := s.hunting) (State.liveEntry_none.mpr retired)]
    rfl
  · obtain ⟨row, pool, values⟩ := State.takeCompose_live (s := s.hunting) (i := i) (g := g) law hv hid hl
    have blank : ∀ {t : State} {n : Nat} (f : ComposeFailure), s.hunting.takeCompose i g c = t.composeFails i g e n f →
        t.station i = (s.station i).vacated → t.freeRows + n = s.freeRows + rowsHeld (s.station i) →
        t.general = s.reportFreed i → ∃ t, exec (.compose i c) s = .next t ∧ LeftBlank s t i g f :=
      fun f taken station rows general =>
        ⟨_, exec_compose h ready, f.leftBlank taken station rows general apart⟩
    have station := s.hunting.vacated_station (i := i) e
    have freeRows := s.hunting.vacated_freeRows (i := i) e
    have general := s.hunting.vacated_general (i := i) e
    refine ⟨fun hrow => blank _ (row hrow) station freeRows general,
      fun hrow hpool => blank _ (pool hrow hpool) station freeRows general, fun f hrow hpool hf => ?_⟩
    refine blank f ((values hrow hpool).1 f hf) ?_ ?_ ?_
    · rw [State.takeRows_station, station]
      rfl
    · rw [State.takeRows_freeRows, freeRows]
      exact Nat.sub_add_cancel hpool
    · rw [State.takeRows_general, general]
      rfl
  · exact buildContext_fixed_bad e hc good (.field bad)
  · exact buildContext_fixed_bad e hc good (.format hd hs ht)
  · refine buildContext_rows_bad e hc hf good nodup fun built tags => ?_
    obtain ⟨insts, hv⟩ := applyValues_good values (v.rowDefs.map initialInst)
    exact composeRow_repeats ((tags.repeats x.tag).mpr ⟨tag, given⟩) hv
  · have rejected : ∀ {reason}, BadValue v.rowDefs y reason →
        buildContext v e c = .error ⟨reason, 4, some (c.fixed.length + before.length + 1)⟩ := fun bad => by
      refine buildContext_rows_bad e hc hf good nodup fun built tags => composeRow_bad ?_ ?_
      · rw [← Bool.not_eq_true, tags.repeats]
        rintro ⟨h0, r, hr, same⟩
        exact (fresh.resolve_left h0) r hr same
      · rw [hx]
        exact applyValues_bad first bad _
    exact ⟨fun bad => rejected (.field bad), fun d hd hs ht => rejected (.format hd hs ht)⟩

end Sys2Proof.Machine

/-! PROOFS. The Tally Unit over a whole form (R41, R94): what it leaves alone, and that each derived instance ends as a
computation from the finished form. -/

namespace Sys2Proof.Machine

/-! ### One instance changed -/

theorem Context.inst?_modInst (c : Context) (r q : InstRef) (f : FieldInst → FieldInst) :
    (c.modInst r f).inst? q = if q = r then (c.inst? r).map f else c.inst? q := by
  cases r with
  | fixed i =>
    cases q with
    | fixed k =>
      simp only [Context.modInst, Context.inst?, modifyNth, List.getElem?_modify, InstRef.fixed.injEq]
      rcases eq_or_ne k i with rfl | hne
      · simp
      · simp [hne, hne.symm]
    | row p j => simp [Context.modInst, Context.inst?, Context.row?]
  | row p j =>
    unfold Context.modInst
    dsimp only
    split
    · rename_i hp
      subst hp
      split
      · rename_i hq
        rw [hq]
        rfl
      · rfl
    · rename_i hp
      cases q with
      | fixed k => simp [Context.inst?]
      | row p' k =>
        rcases eq_or_ne p' 0 with rfl | hp'
        · have hne : (InstRef.row 0 k = .row p j) = False := by simp [Ne.symm hp]
          simp [Context.inst?, Context.row?, hne]
        · simp only [Context.inst?, Context.row?, hp, hp', if_false, modifyNth, List.getElem?_modify, InstRef.row.injEq]
          rcases eq_or_ne p' p with rfl | hne
          · rcases eq_or_ne k j with rfl | hk
            · cases c.rows[p' - 1]? <;> simp
            · cases c.rows[p' - 1]? <;> simp [hk, hk.symm]
          · have apart : p - 1 ≠ p' - 1 := by omega
            simp [hne, apart]

section
variable {w : Work} {r : InstRef} {d : FieldDef}

theorem Work.compute_of_some {x : FieldInst} (hd : w.v.defOf r = some d) (hx : w.c.inst? r = some x) :
    (w.compute r).c = w.c.modInst r fun _ => computed w.v w.c r.position d x := by
  unfold Work.compute
  simp only [hd, hx, Work.putInst_c, Option.isSome_some, if_true]
  cases r <;> rfl

theorem Work.compute_of_none (h : w.v.defOf r = none ∨ w.c.inst? r = none) : w.compute r = w := by
  unfold Work.compute
  split
  · rename_i hd hx
    simp [hd, hx] at h
  · rfl

/-- R94: a computation changes no other instance. -/
theorem Work.compute_inst_ne {q : InstRef} (h : q ≠ r) : (w.compute r).c.inst? q = w.c.inst? q := by
  cases hd : w.v.defOf r with
  | none => rw [Work.compute_of_none (.inl hd)]
  | some d =>
    cases hx : w.c.inst? r with
    | none => rw [Work.compute_of_none (.inr hx)]
    | some x => rw [Work.compute_of_some hd hx, Context.inst?_modInst, if_neg h]

/-- R94: the instance a computation computes. -/
theorem Work.compute_inst_self (hd : w.v.defOf r = some d) :
    (w.compute r).c.inst? r = (w.c.inst? r).map (computed w.v w.c r.position d) := by
  cases hx : w.c.inst? r with
  | none => rw [Work.compute_of_none (.inr hx), hx, Option.map_none]
  | some x => rw [Work.compute_of_some hd hx, Context.inst?_modInst, if_pos rfl, hx]; rfl

end

/-! ### What a tally leaves alone -/

/-- What no computation changes in a row: its tag, its origin and the number of its instances. -/
def RowRec.shape (r : RowRec) : Option Nat × Bool × Nat := (r.tag, r.operatorCreated, r.insts.length)

/-- A computation leaves an instance of a definition that is not derived as it is. -/
theorem computed_of_not_derived {v : TemplateVersion} {c : Context} {p : Nat} {d : FieldDef} (h : isDerived d = false)
    (x : FieldInst) : computed v c p d x = x := by
  unfold computed
  unfold isDerived at h
  split
  · simp_all
  · simp_all
  · rfl

/-- R117: a computation does not touch the modified flag. -/
theorem computed_modified (v : TemplateVersion) (c : Context) (p : Nat) (d : FieldDef) (x : FieldInst) :
    (computed v c p d x).modified = x.modified := by
  have fits : ∀ f o a, (fitResult f o a x).modified = x.modified := fun f o a => by
    unfold fitResult
    split
    · split <;> rfl
    · rfl
  unfold computed
  split
  · split
    · exact fits _ _ _
    · rfl
  · exact fits _ _ _
  · rfl

/-- R94: `c'` is the form `c` after computations of derived instances on version `v`. -/
structure Tallied (v : TemplateVersion) (c c' : Context) : Prop where
  others : c' = { c with fixed := c'.fixed, rows := c'.rows }
  fixed : c'.fixed.length = c.fixed.length
  shapes : c'.rows.map RowRec.shape = c.rows.map RowRec.shape
  entered : ∀ r d, v.defOf r = some d → isDerived d = false → c'.inst? r = c.inst? r
  unmodified : (∀ r x, c.inst? r = some x → x.modified = false) → ∀ r x, c'.inst? r = some x → x.modified = false

namespace Tallied

variable {v : TemplateVersion} {a b c : Context}

theorem refl (v : TemplateVersion) (c : Context) : Tallied v c c := ⟨rfl, rfl, rfl, fun _ _ _ _ => rfl, id⟩

theorem trans (h : Tallied v a b) (k : Tallied v b c) : Tallied v a c :=
  ⟨by rw [k.others, h.others], k.fixed.trans h.fixed, k.shapes.trans h.shapes,
    fun r d hd hn => (k.entered r d hd hn).trans (h.entered r d hd hn), k.unmodified ∘ h.unmodified⟩

theorem rows (h : Tallied v a b) : b.rows.length = a.rows.length := by
  simpa using congrArg List.length h.shapes

theorem fixedKept (h : Tallied v a b) : FixedKept v a.fixed b.fixed :=
  ⟨h.fixed, fun j d hd hn => h.entered (.fixed j) d hd hn⟩

theorem rowKept (h : Tallied v a b) : List.Forall₂ (RowKept v) a.rows b.rows := by
  refine forall₂_iff_getElem?.mpr ⟨h.rows.symm, fun k x y hx hy => ?_⟩
  have shape : y.shape = x.shape := by
    simpa [hx, hy] using congrArg (fun l => l[k]?) h.shapes
  simp only [RowRec.shape, Prod.mk.injEq] at shape
  obtain ⟨tag, origin, length⟩ := shape
  refine ⟨tag, origin, length, fun j d hd hn => ?_⟩
  simpa [Context.inst?, Context.row?, hx, hy] using h.entered (.row (k + 1) j) d hd hn

end Tallied

theorem Context.modInst_others (c : Context) (r : InstRef) (f : FieldInst → FieldInst) :
    c.modInst r f = { c with fixed := (c.modInst r f).fixed, rows := (c.modInst r f).rows } := by
  unfold Context.modInst
  split
  · rfl
  · split <;> rfl

theorem Context.modInst_fixed_length (c : Context) (r : InstRef) (f : FieldInst → FieldInst) :
    (c.modInst r f).fixed.length = c.fixed.length := by
  unfold Context.modInst
  split
  · simp [modifyNth]
  · split <;> rfl

theorem Context.modInst_shapes (c : Context) (r : InstRef) (f : FieldInst → FieldInst) :
    (c.modInst r f).rows.map RowRec.shape = c.rows.map RowRec.shape := by
  unfold Context.modInst
  split
  · rfl
  split
  · rfl
  · exact map_modifyNth (fun x => by simp [RowRec.shape, modifyNth]) _ _

theorem Tallied.compute (w : Work) (r : InstRef) : Tallied w.v w.c (w.compute r).c := by
  cases hd : w.v.defOf r with
  | none => rw [Work.compute_of_none (.inl hd)]; exact .refl _ _
  | some d =>
    cases hx : w.c.inst? r with
    | none => rw [Work.compute_of_none (.inr hx)]; exact .refl _ _
    | some x =>
      have self := Work.compute_inst_self hd
      have form := Work.compute_of_some hd hx
      refine ⟨?_, ?_, ?_, fun q e he hn => ?_, fun clear q y hy => ?_⟩
      · rw [form]; exact Context.modInst_others _ _ _
      · rw [form]; exact Context.modInst_fixed_length _ _ _
      · rw [form]; exact Context.modInst_shapes _ _ _
      · rcases eq_or_ne q r with rfl | hne
        · cases hd.symm.trans he
          rw [self, hx, Option.map_some, computed_of_not_derived hn]
        · exact Work.compute_inst_ne hne
      · rcases eq_or_ne q r with rfl | hne
        · rw [self, hx] at hy
          cases hy
          rw [computed_modified]
          exact clear _ x hx
        · rw [Work.compute_inst_ne hne] at hy
          exact clear q y hy

/-! ### The order of a tally (R94) -/

/-- The instances that R41 computes on a form of `n` rows, in order: every PRODUCT row by row, then every SUM. -/
def tallyRefs (v : TemplateVersion) (n : Nat) : List InstRef :=
  (List.range n).flatMap (fun k => (pick v.rowDefs isProduct).map (.row (k + 1))) ++ (pick v.fixed isSum).map .fixed

theorem Work.computeAll_v (l : List InstRef) (w : Work) : (l.foldl Work.compute w).v = w.v :=
  foldl_keeps (P := fun u => u.v = w.v) (fun u r h => (Work.compute_keeps u r).version.trans h) l rfl

theorem Tallied.computeAll (l : List InstRef) (w : Work) : Tallied w.v w.c (l.foldl Work.compute w).c :=
  (foldl_keeps (P := fun u => u.v = w.v ∧ Tallied w.v w.c u.c) (fun u r ⟨hv, h⟩ =>
    ⟨(Work.compute_keeps u r).version.trans hv, h.trans (hv ▸ Tallied.compute u r)⟩) l ⟨rfl, .refl _ _⟩).2

theorem Work.tallyAll_eq (w : Work) : w.tallyAll = (tallyRefs w.v w.c.rows.length).foldl Work.compute w := by
  have row : ∀ (u : Work) p, u.computeRow p = ((pick u.v.rowDefs isProduct).map (.row p)).foldl Work.compute u :=
    fun u p => List.foldl_map.symm
  have sums : ∀ u : Work, u.computeAllSums = ((pick u.v.fixed isSum).map .fixed).foldl Work.compute u :=
    fun u => List.foldl_map.symm
  have rows : ∀ (l : List Nat) (u : Work), u.v = w.v → l.foldl (fun u k => u.computeRow (k + 1)) u
      = (l.flatMap fun k => (pick w.v.rowDefs isProduct).map (.row (k + 1))).foldl Work.compute u := by
    intro l
    induction l with
    | nil => exact fun _ _ => rfl
    | cons k l ih =>
      intro u hu
      rw [List.foldl_cons, row, List.flatMap_cons, List.foldl_append, hu, ih _ ((Work.computeAll_v _ _).trans hu)]
  unfold Work.tallyAll tallyRefs
  rw [sums, rows _ _ rfl, Work.computeAll_v, List.foldl_append]

theorem Tallied.tallyAll (w : Work) : Tallied w.v w.c w.tallyAll.c := Work.tallyAll_eq w ▸ .computeAll _ w

/-! ### What a computation reads -/

/-- R98, R99: the instance `q` is an operand of the derived definition `d` at row position `p`. -/
def Reads (v : TemplateVersion) (d : FieldDef) (p : Nat) (q : InstRef) : Prop :=
  match d.kind with
  | .product _ a b _ => ∃ j, (rowIndex v a = some j ∨ rowIndex v b = some j) ∧ q = .row p j
  | .sum _ source _ => ∃ k j, rowIndex v source = some j ∧ q = .row (k + 1) j
  | _ => False

theorem rowValue_congr {v : TemplateVersion} {c c' : Context} {p id : Nat}
    (h : ∀ j, rowIndex v id = some j → c'.inst? (.row p j) = c.inst? (.row p j)) :
    rowValue v c' p id = rowValue v c p id := by
  unfold rowValue
  cases hj : rowIndex v id with
  | none => rfl
  | some j => simp only [Option.bind_some, h j hj]

/-- A computation depends on its operands and the number of rows alone. -/
theorem computed_congr {v : TemplateVersion} {c c' : Context} {p : Nat} {d : FieldDef}
    (hn : c'.rows.length = c.rows.length) (h : ∀ q, Reads v d p q → c'.inst? q = c.inst? q) (x : FieldInst) :
    computed v c' p d x = computed v c p d x := by
  unfold computed
  unfold Reads at h
  split
  · rename_i a b part hk
    rw [hk] at h
    rw [rowValue_congr fun j hj => h _ ⟨j, .inl hj, rfl⟩, rowValue_congr fun j hj => h _ ⟨j, .inr hj, rfl⟩]
  · rename_i source part hk
    rw [hk] at h
    have values : (fun k => rowValue v c' (k + 1) source) = fun k => rowValue v c (k + 1) source :=
      funext fun k => rowValue_congr fun j hj => h _ ⟨k, j, hj, rfl⟩
    rw [hn, values]
  · rfl

/-- No instance of `l` is computed from itself or from one behind it. -/
def InReadingOrder (v : TemplateVersion) (l : List InstRef) : Prop :=
  (∀ r ∈ l, ∀ d, v.defOf r = some d → ¬Reads v d r.position r)
    ∧ l.Pairwise fun r q => r ≠ q ∧ ∀ d, v.defOf r = some d → ¬Reads v d r.position q

theorem Work.computeAll_inst_of_not_mem {l : List InstRef} {q : InstRef} (h : q ∉ l) (w : Work) :
    (l.foldl Work.compute w).c.inst? q = w.c.inst? q := by
  induction l generalizing w with
  | nil => rfl
  | cons r l ih =>
    rw [List.mem_cons, not_or] at h
    rw [List.foldl_cons, ih h.2, Work.compute_inst_ne h.1]

/-- R94: computed in reading order, each instance is a computation from the form they end in. -/
theorem Work.computeAll_inst {l : List InstRef} (w : Work) (h : InReadingOrder w.v l) {r : InstRef} (hr : r ∈ l)
    {d : FieldDef} (hd : w.v.defOf r = some d) : (l.foldl Work.compute w).c.inst? r
      = (w.c.inst? r).map (computed w.v (l.foldl Work.compute w).c r.position d) := by
  induction l generalizing w with
  | nil => cases hr
  | cons q l ih =>
    obtain ⟨self, order⟩ := h
    obtain ⟨selfQ, self⟩ := List.forall_mem_cons.mp self
    obtain ⟨behind, order⟩ := List.pairwise_cons.mp order
    have version : (w.compute q).v = w.v := (Work.compute_keeps w q).version
    rw [List.foldl_cons]
    rcases List.mem_cons.mp hr with rfl | hr
    · have fresh : r ∉ l := fun hm => (behind r hm).1 rfl
      have kept : ∀ p, Reads w.v d r.position p →
          (l.foldl Work.compute (w.compute r)).c.inst? p = w.c.inst? p := fun p hp => by
        have outside : p ∉ l := fun hm => (behind p hm).2 d hd hp
        have other : p ≠ r := fun e => selfQ d hd (e ▸ hp)
        rw [Work.computeAll_inst_of_not_mem outside, Work.compute_inst_ne other]
      have rows := (Tallied.computeAll (r :: l) w).rows
      rw [Work.computeAll_inst_of_not_mem fresh, Work.compute_inst_self hd]
      exact congrArg (Option.map · _) (funext fun x => (computed_congr rows kept x).symm)
    · have other : r ≠ q := fun e => (behind r hr).1 e.symm
      rw [ih (w.compute q) ⟨version ▸ self, version ▸ order⟩ hr (version ▸ hd), Work.compute_inst_ne other, version]

end Sys2Proof.Machine

/-! PROOFS. The order of R94 on a sound template: every derived instance of a form is computed once, behind its operands. -/

namespace Sys2Proof.Machine

theorem mem_pick {l : List FieldDef} {test : FieldDef → Bool} {j : Nat} :
    j ∈ pick l test ↔ ∃ d, l[j]? = some d ∧ test d = true := by
  unfold pick
  simp only [List.mem_filter, List.mem_range]
  cases hd : l[j]? with
  | none => simp
  | some d =>
    have := (List.getElem?_eq_some_iff.mp hd).1
    simp [this]

theorem pick_nodup (l : List FieldDef) (test : FieldDef → Bool) : (pick l test).Nodup := List.nodup_range.filter _

/-- A reference that R41 computes: a PRODUCT of a row, or a SUM among the fixed fields. -/
theorem mem_tallyRefs {v : TemplateVersion} {n : Nat} {r : InstRef} : r ∈ tallyRefs v n ↔
    (∃ k j d, k < n ∧ v.rowDefs[j]? = some d ∧ isProduct d = true ∧ r = .row (k + 1) j)
      ∨ ∃ j d, v.fixed[j]? = some d ∧ isSum d = true ∧ r = .fixed j := by
  simp only [tallyRefs, List.mem_append, List.mem_flatMap, List.mem_map, List.mem_range, mem_pick]
  grind

theorem tallyRefs_nodup (v : TemplateVersion) (n : Nat) : (tallyRefs v n).Nodup := by
  refine List.nodup_append.mpr ⟨List.nodup_flatMap.mpr ⟨fun k _ => ?_, ?_⟩, ?_, ?_⟩
  · exact (pick_nodup _ _).map fun a b e => by cases e; rfl
  · refine List.nodup_range.pairwise_of_forall_ne fun a _ b _ hne => ?_
    intro r ha hb
    obtain ⟨_, _, rfl⟩ := List.mem_map.mp ha
    obtain ⟨_, _, e⟩ := List.mem_map.mp hb
    cases e
    exact hne rfl
  · exact (pick_nodup _ _).map fun a b e => by cases e; rfl
  · intro a ha b hb
    obtain ⟨k, _, hk⟩ := List.mem_flatMap.mp ha
    obtain ⟨_, _, rfl⟩ := List.mem_map.mp hk
    obtain ⟨_, _, rfl⟩ := List.mem_map.mp hb
    exact nofun

/-! ### Sound templates (R7) -/

theorem isProduct_iff {d : FieldDef} : isProduct d = true ↔ ∃ p a b part, d.kind = .product p a b part := by
  unfold isProduct
  cases d.kind <;> simp

theorem isSum_iff {d : FieldDef} : isSum d = true ↔ ∃ p source part, d.kind = .sum p source part := by
  unfold isSum
  cases d.kind <;> simp

section
variable {v : TemplateVersion} (hv : SoundVersion v)
include hv

/-- R4: an id names the row definition that bears it, and no other. -/
theorem SoundVersion.rowIndex_unique {id j : Nat} {d d' : FieldDef} (hj : rowIndex v id = some j)
    (hd : v.rowDefs[j]? = some d) (hm : d' ∈ v.rowDefs) (hid : d'.id = id) : d = d' := by
  obtain ⟨h, found, -⟩ := List.findIdx?_eq_some_iff_getElem.mp hj
  obtain ⟨_, rfl⟩ := List.getElem?_eq_some_iff.mp hd
  have ids : (v.rowDefs.map FieldDef.id).Nodup := by
    have := hv.entries.ids
    rw [List.map_append] at this
    exact (List.nodup_append.mp this).2.1
  exact List.inj_on_of_nodup_map ids (List.getElem_mem _) hm ((eq_of_beq found).trans hid.symm)

/-- R7: an operand of a PRODUCT is no PRODUCT. -/
theorem SoundVersion.operand_entered {id j : Nat} {d : FieldDef} (named : NamesRowField v.rowDefs id false)
    (hj : rowIndex v id = some j) (hd : v.rowDefs[j]? = some d) : isProduct d = false := by
  obtain ⟨d', hm, hid, hk⟩ := named
  obtain rfl := hv.rowIndex_unique hj hd hm hid
  rcases hk with ⟨p, policy, hk⟩ | ⟨e, -⟩
  · simp [isProduct, hk]
  · cases e

/-- R7: a derived FIXED definition is a SUM. -/
theorem SoundVersion.fixed_derived {d : FieldDef} (hm : d ∈ v.fixed) (hd : isDerived d = true) : isSum d = true := by
  obtain ⟨-, -, kind, -⟩ := hv.entries.fields d (List.mem_append_left _ hm)
  have region := hv.fixedRegion d hm
  unfold SoundKind at kind
  unfold isDerived at hd
  unfold isSum
  cases hk : d.kind <;> simp_all

/-- R7: a derived ROW definition is a PRODUCT. -/
theorem SoundVersion.row_derived {d : FieldDef} (hm : d ∈ v.rowDefs) (hd : isDerived d = true) : isProduct d = true := by
  obtain ⟨-, -, kind, -⟩ := hv.entries.fields d (List.mem_append_right _ hm)
  have region := hv.rowRegion d hm
  unfold SoundKind at kind
  unfold isDerived at hd
  unfold isProduct
  cases hk : d.kind <;> simp_all

/-- R7, R94: PRODUCTs read entered values, and SUMs row instances, all of which are computed before. -/
theorem SoundVersion.tallyRefs_order (n : Nat) : InReadingOrder v (tallyRefs v n) := by
  have product : ∀ {k j : Nat} {d : FieldDef}, v.rowDefs[j]? = some d → isProduct d = true →
      ∀ q ∈ tallyRefs v n, ¬Reads v d k q := by
    intro k j d hd hp q hq hr
    obtain ⟨p, a, b, part, hk⟩ := isProduct_iff.mp hp
    obtain ⟨-, -, kind, -⟩ := hv.entries.fields d (List.mem_append_right _ (List.mem_of_getElem? hd))
    rw [SoundKind, hk] at kind
    obtain ⟨-, -, -, -, -, -, -, namesA, namesB⟩ := kind
    rw [Reads, hk] at hr
    obtain ⟨m, hm, rfl⟩ := hr
    rcases mem_tallyRefs.mp hq with ⟨k', j', d', -, hd', hp', e⟩ | ⟨_, _, -, -, e⟩
    · cases e
      have entered : isProduct d' = false :=
        hm.elim (fun h => hv.operand_entered namesA h hd') (fun h => hv.operand_entered namesB h hd')
      rw [hp'] at entered
      cases entered
    · cases e
  have sum : ∀ {d : FieldDef} {j : Nat} {k : Nat}, isSum d = true → ¬Reads v d k (.fixed j) := by
    intro d j k hs hr
    obtain ⟨p, source, part, hk⟩ := isSum_iff.mp hs
    rw [Reads, hk] at hr
    obtain ⟨_, _, -, e⟩ := hr
    cases e
  refine ⟨fun r hr d hd => ?_, ?_⟩
  · rcases mem_tallyRefs.mp hr with ⟨k, j, d', -, hd', hp, rfl⟩ | ⟨j, d', hd', hs, rfl⟩
    · cases hd'.symm.trans hd
      exact product hd' hp _ hr
    · cases hd'.symm.trans hd
      exact sum hs
  · obtain ⟨products, sums, apart⟩ := List.nodup_append.mp (tallyRefs_nodup v n)
    have first : ∀ r ∈ (List.range n).flatMap (fun k => (pick v.rowDefs isProduct).map (.row (k + 1))),
        ∀ q ∈ tallyRefs v n, ∀ d, v.defOf r = some d → ¬Reads v d r.position q := by
      intro r hr q hq d hd
      obtain ⟨k, -, hk⟩ := List.mem_flatMap.mp hr
      obtain ⟨j, hj, rfl⟩ := List.mem_map.mp hk
      obtain ⟨d', hd', hp⟩ := mem_pick.mp hj
      cases hd'.symm.trans hd
      exact product hd' hp q hq
    refine List.pairwise_append.mpr ⟨?_, ?_, fun r hr q hq => ⟨apart r hr q hq, ?_⟩⟩
    · exact products.imp_of_mem fun {r q} hr hq hne => ⟨hne, first r hr q (List.mem_append_left _ hq)⟩
    · refine sums.imp_of_mem fun {r q} hr hq hne => ⟨hne, fun d hd => ?_⟩
      obtain ⟨j, hj, rfl⟩ := List.mem_map.mp hr
      obtain ⟨_, -, rfl⟩ := List.mem_map.mp hq
      obtain ⟨d', hd', hs⟩ := mem_pick.mp hj
      cases hd'.symm.trans hd
      exact sum hs
    · exact first r hr q (List.mem_append_right _ hq)

/-- R94: on a sound template every derived instance of a form is among those computed. -/
theorem SoundVersion.derived_mem_tallyRefs {c : Context} {r : InstRef} {d : FieldDef} {x : FieldInst}
    (hd : v.defOf r = some d) (hx : c.inst? r = some x) (derived : isDerived d = true) :
    r ∈ tallyRefs v c.rows.length := by
  refine mem_tallyRefs.mpr ?_
  cases r with
  | fixed j => exact .inr ⟨j, d, hd, hv.fixed_derived (List.mem_of_getElem? hd) derived, rfl⟩
  | row p j =>
    obtain ⟨row, hrow, -⟩ := Option.bind_eq_some_iff.mp hx
    unfold Context.row? at hrow
    split at hrow
    · cases hrow
    · rename_i hp
      have range := (List.getElem?_eq_some_iff.mp hrow).1
      exact .inl ⟨p - 1, j, d, range, hd, hv.row_derived (List.mem_of_getElem? hd) derived, by
        rw [Nat.sub_add_cancel (Nat.one_le_iff_ne_zero.mpr hp)]⟩

/-- R41, R94: a tally of a whole form leaves each derived instance as a computation from that form. -/
theorem SoundVersion.tallyAll_inst {w : Work} (hw : w.v = v) {r : InstRef} {d : FieldDef} {x : FieldInst}
    (hd : v.defOf r = some d) (derived : isDerived d = true) (hx : w.tallyAll.c.inst? r = some x) :
    ∃ y, w.c.inst? r = some y ∧ x = computed v w.tallyAll.c r.position d y := by
  subst hw
  have mem : r ∈ tallyRefs w.v w.c.rows.length := by
    rw [← (Tallied.tallyAll w).rows]
    exact hv.derived_mem_tallyRefs hd hx derived
  rw [Work.tallyAll_eq, Work.computeAll_inst w (hv.tallyRefs_order _) mem hd] at hx
  obtain ⟨y, hy, rfl⟩ := Option.map_eq_some_iff.mp hx
  exact ⟨y, hy, by rw [Work.tallyAll_eq]⟩

end

end Sys2Proof.Machine

/-! PROOFS. A COMPOSE that succeeds (R38 to R41, R43): the form it builds, its version's uses, and the state it leaves. -/

namespace Sys2Proof.Machine

/-! ### The instances of a built form (R40) -/

section
variable {defs : List FieldDef}

/-- R40, R93: the instances of a form being built: none is modified, and the derived ones are as they start. -/
structure FreshInsts (defs : List FieldDef) (insts : List FieldInst) : Prop where
  derived : ∀ (j : Nat) d x, defs[j]? = some d → insts[j]? = some x → isDerived d = true → x = initialInst d
  unmodified : ∀ x ∈ insts, x.modified = false

theorem initialInst_modified (d : FieldDef) : (initialInst d).modified = false := by
  unfold initialInst
  split
  · split <;> rfl
  · rfl

theorem FreshInsts.initial (defs : List FieldDef) : FreshInsts defs (defs.map initialInst) := by
  refine ⟨fun j d x hd hx _ => ?_, fun x hx => ?_⟩
  · rw [List.getElem?_map, hd] at hx
    exact (Option.some.inj hx).symm
  · obtain ⟨d, -, rfl⟩ := List.mem_map.mp hx
    exact initialInst_modified d

/-- R40: a value is set in an instance that is not derived, its modified flag clear. -/
theorem FreshInsts.applyValue {insts out : List FieldInst} (h : FreshInsts defs insts) {x : ValueEntry}
    (hx : applyValue defs insts x = .ok out) : FreshInsts defs out := by
  unfold Machine.applyValue at hx
  split at hx
  · cases hx
  rename_i j _
  split at hx
  · cases hx
  rename_i d hd
  split at hx
  · cases hx
  rename_i settable
  split at hx
  · cases hx
  rename_i w hw
  cases hx
  refine ⟨fun k d' y hd' hy derived => ?_, fun y hy => ?_⟩
  · rw [modifyNth, List.getElem?_modify] at hy
    obtain ⟨z, hz, rfl⟩ := Option.map_eq_some_iff.mp hy
    have other : j ≠ k := by
      rintro rfl
      cases hd.symm.trans hd'
      simp [hostSettable, derived] at settable
    rw [if_neg other]
    exact h.derived k d' z hd' hz derived
  · obtain ⟨k, hk⟩ := List.mem_iff_getElem?.mp hy
    rw [modifyNth, List.getElem?_modify] at hk
    obtain ⟨z, hz, rfl⟩ := Option.map_eq_some_iff.mp hk
    split
    · rfl
    · exact h.unmodified z (List.mem_of_getElem? hz)

theorem FreshInsts.applyValues (l : List ValueEntry) {insts out : List FieldInst} (h : FreshInsts defs insts)
    (hx : applyValues defs insts l = .ok out) : FreshInsts defs out := by
  induction l generalizing insts with
  | nil => cases hx; exact h
  | cons x rest ih =>
    unfold Machine.applyValues at hx
    split at hx
    · cases hx
    · rename_i applied
      exact ih (h.applyValue applied) hx

theorem FreshInsts.applyFixed (l : List ValueEntry) {insts out : List FieldInst} {k : Nat} (h : FreshInsts defs insts)
    (hx : applyFixed defs k insts l = .ok out) : FreshInsts defs out := by
  induction l generalizing insts k with
  | nil => cases hx; exact h
  | cons x rest ih =>
    unfold Machine.applyFixed at hx
    split at hx
    · cases hx
    · rename_i applied
      exact ih (h.applyValue applied) hx

/-- R40: the rows built from the row entries `l`. -/
structure FreshRows (defs : List FieldDef) (l : List RowEntry) (rows : List RowRec) : Prop where
  tags : TagsOf l rows
  host : ∀ r ∈ rows, r.operatorCreated = false
  insts : ∀ r ∈ rows, FreshInsts defs r.insts

theorem composeRow_ok {built : List RowRec} {x : RowEntry} {r : RowRec} (h : composeRow defs built x = .ok r) :
    ∃ insts, FreshInsts defs insts ∧ r = { insts := insts, tag := tagOf x.tag, operatorCreated := false } := by
  unfold composeRow at h
  split at h
  · cases h
  · cases h
  · cases h
  · rename_i insts _ applied
    cases h
    exact ⟨insts, (FreshInsts.initial defs).applyValues _ applied, rfl⟩

theorem FreshRows.composeRows (l : List RowEntry) {done : List RowEntry} {k : Nat} {built out : List RowRec}
    (h : FreshRows defs done built) (hx : composeRows defs k built l = .ok out) : FreshRows defs (done ++ l) out := by
  induction l generalizing done built k with
  | nil => cases hx; rwa [List.append_nil]
  | cons x rest ih =>
    unfold Machine.composeRows at hx
    split at hx
    · cases hx
    · rename_i r applied
      obtain ⟨insts, fresh, rfl⟩ := composeRow_ok applied
      have tags := h.tags
      have next : FreshRows defs (done ++ [x])
          (built ++ [{ insts := insts, tag := tagOf x.tag, operatorCreated := false }]) := by
        refine ⟨?_, List.forall_mem_append.mpr ⟨h.host, ?_⟩, List.forall_mem_append.mpr ⟨h.insts, ?_⟩⟩
        · unfold TagsOf at tags ⊢
          simp [tags]
        · exact List.forall_mem_singleton.mpr rfl
        · exact List.forall_mem_singleton.mpr fresh
      simpa using ih next hx

end

/-- R40: the form of a COMPOSE before step 5. -/
structure FreshForm (v : TemplateVersion) (r : ComposeRec) (c : Context) : Prop where
  fixed : FreshInsts v.fixed c.fixed
  rows : FreshRows v.rowDefs r.rows c.rows

theorem buildContext_fresh {v : TemplateVersion} {e : EntryId} {r : ComposeRec} {c : Context}
    (h : buildContext v e r = .ok c) : FreshForm v r c := by
  unfold buildContext at h
  split at h
  · cases h
  rename_i fixed hfixed
  split at h
  · cases h
  rename_i rows hrows
  cases h
  exact ⟨(FreshInsts.initial _).applyFixed _ hfixed,
    FreshRows.composeRows r.rows (done := []) (built := []) ⟨rfl, nofun, nofun⟩ hrows⟩

namespace FreshForm

variable {v : TemplateVersion} {r : ComposeRec} {c : Context} (h : FreshForm v r c)
include h

/-- An instance of the form stands in its list of instances. -/
theorem fresh_of_inst {q : InstRef} {x : FieldInst} (hx : c.inst? q = some x) :
    x.modified = false ∧ ∀ d, v.defOf q = some d → isDerived d = true → x = initialInst d := by
  cases q with
  | fixed j => exact ⟨h.fixed.unmodified x (List.mem_of_getElem? hx), fun d hd => h.fixed.derived j d x hd hx⟩
  | row p j =>
    obtain ⟨row, hrow, hx⟩ := Option.bind_eq_some_iff.mp hx
    unfold Context.row? at hrow
    split at hrow
    · cases hrow
    · have fresh := h.rows.insts row (List.mem_of_getElem? hrow)
      exact ⟨fresh.unmodified x (List.mem_of_getElem? hx), fun d hd => fresh.derived j d x hd hx⟩

end FreshForm

/-! ### The cursor of a built form (R41) -/

section
variable {v : TemplateVersion} {c : Context} {ref : FieldRef}

theorem resolveRef_of_fixed {j : Nat} {d : FieldDef} (hj : v.fixed.findIdx? (fun d => d.id == ref.id) = some j)
    (hd : v.fixed[j]? = some d) (hp : ref.position = 0) : resolveRef v c ref = .ok (.fixed j, d) := by
  simp only [resolveRef, hj, hd, hp, if_true]

theorem resolveRef_of_row {j : Nat} {d : FieldDef} (hf : v.fixed.findIdx? (fun d => d.id == ref.id) = none)
    (hj : v.rowDefs.findIdx? (fun d => d.id == ref.id) = some j) (hd : v.rowDefs[j]? = some d)
    (hlo : 1 ≤ ref.position) (hhi : ref.position ≤ c.rows.length) :
    resolveRef v c ref = .ok (.row ref.position j, d) := by
  have present : ref.position ≠ 0 := by omega
  simp only [resolveRef, hf, hj, hd, if_neg present, if_pos hhi]

/-- R41: the references that name no instance of the form. -/
theorem resolveRef_error (h : (∀ d ∈ v.fixed ++ v.rowDefs, d.id ≠ ref.id)
    ∨ v.fixed.findIdx? (fun d => d.id == ref.id) ≠ none ∧ ref.position ≠ 0
    ∨ v.fixed.findIdx? (fun d => d.id == ref.id) = none ∧ (ref.position = 0 ∨ c.rows.length < ref.position)) :
    ∃ reason, resolveRef v c ref = .error reason := by
  have named : ∀ {l : List FieldDef} {j : Nat}, l.findIdx? (fun d => d.id == ref.id) = some j →
      ∃ d ∈ l, d.id = ref.id := by
    intro l j hj
    obtain ⟨hlt, hid, -⟩ := List.findIdx?_eq_some_iff_getElem.mp hj
    exact ⟨_, List.getElem_mem hlt, eq_of_beq hid⟩
  unfold resolveRef
  split
  · rename_i j hj
    have position : ref.position ≠ 0 := by
      rcases h with h | ⟨-, h⟩ | ⟨h, -⟩
      · obtain ⟨d, hm, hid⟩ := named hj
        exact absurd hid (h d (List.mem_append_left _ hm))
      · exact h
      · rw [hj] at h; cases h
    split
    · exact ⟨_, if_neg position⟩
    · exact ⟨_, rfl⟩
  · rename_i hf
    split
    · rename_i j hj
      have position : ref.position = 0 ∨ c.rows.length < ref.position := by
        rcases h with h | ⟨h, -⟩ | ⟨-, h⟩
        · obtain ⟨d, hm, hid⟩ := named hj
          exact absurd hid (h d (List.mem_append_right _ hm))
        · exact absurd hf h
        · exact h
      split
      · split
        · exact ⟨_, rfl⟩
        · rename_i h0
          exact ⟨_, if_neg (Nat.not_le.mpr (position.resolve_left h0))⟩
      · exact ⟨_, rfl⟩
    · exact ⟨_, rfl⟩

/-- R41: the window and the cursor are all that step 5 places. -/
theorem placeCursor_eq (v : TemplateVersion) (c : Context) (ref : FieldRef) : placeCursor v c ref
    = { c with first := (placeCursor v c ref).first, cursor := (placeCursor v c ref).cursor } := by
  unfold placeCursor
  split <;> rfl

theorem placeCursor_home {reason : Reason} (h : resolveRef v c ref = .error reason) :
    (placeCursor v c ref).first = 1 ∧ (placeCursor v c ref).cursor = homePos v (placeCursor v c ref) := by
  simp only [placeCursor, h]
  exact ⟨trivial, rfl⟩

theorem placeCursor_fixed {j : Nat} {d : FieldDef} (h : resolveRef v c ref = .ok (.fixed j, d))
    (hd : v.fixed[j]? = some d) :
    (placeCursor v c ref).first = 1 ∧ (placeCursor v c ref).cursor = ⟨d.row, d.col⟩ := by
  simp only [placeCursor, h, fieldStart, hd, and_self]

theorem placeCursor_row {p j : Nat} {d : FieldDef} (h : resolveRef v c ref = .ok (.row p j, d))
    (hd : v.rowDefs[j]? = some d) :
    (placeCursor v c ref).first = (if p ≤ v.group.visible then 1 else clampFirst v.group c.rows.length p)
      ∧ (placeCursor v c ref).cursor = ⟨v.group.first + p - (placeCursor v c ref).first, d.col⟩ := by
  simp only [placeCursor, h, fieldStart, hd, and_self]

end

/-! ### The form of a COMPOSE (R41, R94) -/

/-- R40, R41, R94: `ctx` is the form that the COMPOSE `r` makes of the built form `built` on version `v`. -/
structure FormComposed (v : TemplateVersion) (r : ComposeRec) (built ctx : Context) : Prop where
  others : ctx = { built with fixed := ctx.fixed, rows := ctx.rows, first := ctx.first, cursor := ctx.cursor }
  fixed : FixedKept v built.fixed ctx.fixed
  rows : List.Forall₂ (RowKept v) built.rows ctx.rows
  tags : ctx.rows.map RowRec.tag = r.rows.map fun x => if x.tag = 0 then none else some x.tag
  fixedUnmodified : ∀ x ∈ ctx.fixed, x.modified = false
  rowsUnmodified : ∀ y ∈ ctx.rows, y.operatorCreated = false ∧ ∀ x ∈ y.insts, x.modified = false
  derived : SoundVersion v → ∀ q d x, v.defOf q = some d → ctx.inst? q = some x → isDerived d = true →
    x = computed v ctx q.position d (initialInst d)
  home : (∀ d ∈ v.fixed ++ v.rowDefs, d.id ≠ r.cursor.id)
      ∨ v.fixed.findIdx? (fun d => d.id == r.cursor.id) ≠ none ∧ r.cursor.position ≠ 0
      ∨ v.fixed.findIdx? (fun d => d.id == r.cursor.id) = none
        ∧ (r.cursor.position = 0 ∨ r.rows.length < r.cursor.position) →
    ctx.first = 1 ∧ ctx.cursor = homePos v ctx
  atFixed : ∀ j d, v.fixed.findIdx? (fun d => d.id == r.cursor.id) = some j → v.fixed[j]? = some d →
    r.cursor.position = 0 → ctx.first = 1 ∧ ctx.cursor = ⟨d.row, d.col⟩
  atRow : ∀ j d, v.fixed.findIdx? (fun d => d.id == r.cursor.id) = none →
    v.rowDefs.findIdx? (fun d => d.id == r.cursor.id) = some j → v.rowDefs[j]? = some d →
    1 ≤ r.cursor.position → r.cursor.position ≤ r.rows.length →
    ctx.first = (if r.cursor.position ≤ v.group.visible then 1
        else min r.cursor.position (max 1 (r.rows.length + 1 - v.group.visible)))
      ∧ ctx.cursor = ⟨v.group.first + r.cursor.position - ctx.first, d.col⟩

/-- A reference to an instance that stands in a form. -/
theorem Context.inst?_of_mem_row {c : Context} {y : RowRec} (hy : y ∈ c.rows) {x : FieldInst} (hx : x ∈ y.insts) :
    ∃ p j, c.inst? (.row p j) = some x := by
  obtain ⟨k, hk⟩ := List.mem_iff_getElem?.mp hy
  obtain ⟨j, hj⟩ := List.mem_iff_getElem?.mp hx
  exact ⟨k + 1, j, by simp [Context.inst?, Context.row?, hk, hj]⟩

theorem FreshForm.composed {w : Work} {r : ComposeRec} (h : FreshForm w.v r w.c) :
    FormComposed w.v r w.c (placeCursor w.v w.tallyAll.c r.cursor) := by
  have tallied := Tallied.tallyAll w
  have count : w.tallyAll.c.rows.length = r.rows.length :=
    tallied.rows.trans (by simpa using congrArg List.length h.rows.tags)
  have unmodified := tallied.unmodified fun q x hx => (h.fresh_of_inst hx).1
  have place := placeCursor_eq w.v w.tallyAll.c r.cursor
  have fixed : (placeCursor w.v w.tallyAll.c r.cursor).fixed = w.tallyAll.c.fixed := by rw [place]
  have rows : (placeCursor w.v w.tallyAll.c r.cursor).rows = w.tallyAll.c.rows := by rw [place]
  have insts : ∀ q, (placeCursor w.v w.tallyAll.c r.cursor).inst? q = w.tallyAll.c.inst? q := fun q => by rw [place]; rfl
  refine ⟨?_, ?_, ?_, ?_, fun x hx => ?_, fun y hy => ⟨?_, fun x hx => ?_⟩, fun sound q d x hd hx derived => ?_,
    fun absent => ?_, fun j d hj hd hp => ?_, fun j d hf hj hd hlo hhi => ?_⟩
  · rw [place, tallied.others]
  · rw [fixed]; exact tallied.fixedKept
  · rw [rows]; exact tallied.rowKept
  · have kept : w.tallyAll.c.rows.map RowRec.tag = w.c.rows.map RowRec.tag := by
      simpa [RowRec.shape, Function.comp_def] using congrArg (List.map Prod.fst) tallied.shapes
    rw [rows, kept]
    exact h.rows.tags
  · rw [fixed] at hx
    obtain ⟨j, hj⟩ := List.mem_iff_getElem?.mp hx
    exact unmodified (.fixed j) x hj
  · have kept : w.tallyAll.c.rows.map RowRec.operatorCreated = w.c.rows.map RowRec.operatorCreated := by
      simpa [RowRec.shape, Function.comp_def] using congrArg (List.map fun s => s.2.1) tallied.shapes
    rw [rows] at hy
    have mem : y.operatorCreated ∈ w.tallyAll.c.rows.map RowRec.operatorCreated := List.mem_map_of_mem hy
    rw [kept] at mem
    obtain ⟨z, hz, e⟩ := List.mem_map.mp mem
    exact e.symm.trans (h.rows.host z hz)
  · rw [rows] at hy
    obtain ⟨p, j, hq⟩ := Context.inst?_of_mem_row hy hx
    exact unmodified _ x hq
  · rw [insts] at hx
    obtain ⟨y, hy, rfl⟩ := sound.tallyAll_inst rfl hd derived hx
    rw [(h.fresh_of_inst hy).2 d hd derived]
    exact (computed_congr (by rw [rows]) (fun q _ => insts q) _).symm
  · rw [← count] at absent
    obtain ⟨reason, unresolved⟩ := resolveRef_error absent
    exact placeCursor_home unresolved
  · exact placeCursor_fixed (resolveRef_of_fixed hj hd hp) hd
  · rw [← count] at hhi ⊢
    obtain ⟨first, cursor⟩ := placeCursor_row (resolveRef_of_row hf hj hd hlo hhi) hd
    refine ⟨first.trans ?_, cursor⟩
    rw [clampFirst, windowBound, Nat.max_eq_right hlo]

end Sys2Proof.Machine

/-! PROOFS. A COMPOSE that succeeds, at the part: the uses of its version, the row pool, the slots and the station (R31,
R32, R39, R41, R43). -/

namespace Sys2Proof.Machine

variable {s : State} {i : StationId} {g : GenId} {e : EntryId} {v : TemplateVersion} {r : ComposeRec}

/-- R19 to R21: a version that a context is built on is in use. -/
theorem StoreLaw.used (h : StoreLaw s) {c : Context} {w : TemplateVersion} (hc : (s.station i).ctx = some c)
    (hw : s.table[c.entry] = some w) : 1 ≤ w.useCount := by
  obtain ⟨-, -, counts, -⟩ := h
  have uses : usesOf s c.entry ≠ 0 := fun h0 => usesOf_eq_zero.mp h0 i c hc rfl
  have := (counts c.entry w hw).1
  omega

/-- R20: the use that a COMPOSE of a LIVE version adds, when the old form's use is gone. -/
theorem State.vacated_table_eq {u : TemplateVersion} (h : (s.dropContext i).table[e] = some u) :
    (s.vacated i e).table = (s.dropContext i).table.set e (some { u with useCount := u.useCount + 1 }) := by
  rw [State.vacated_table, State.raiseUse_eq h, State.setEntry_table]

/-- A table in which an entry is set to what it holds. -/
theorem tableSet_self {t : Vector (Option TemplateVersion) 48} {o : Option TemplateVersion} (h : t[e] = o) :
    t.set e o = t := by
  subst h
  exact Vector.set_getElem_self ..

/-- R20, R21: the table and the events after the old form has lost its use and the version has gained one. -/
theorem State.vacated_store (h : StoreLaw s) (hv : s.table[e] = some v) (hl : v.status = .live) :
    ((s.station i).ctx = none →
      (s.vacated i e).table = s.table.set e (some { v with useCount := v.useCount + 1 })
        ∧ (s.dropContext i).raw = s.raw)
    ∧ ∀ old w, (s.station i).ctx = some old → s.table[old.entry] = some w →
      (old.entry = e → (s.vacated i e).table = s.table ∧ (s.dropContext i).raw = s.raw)
      ∧ (old.entry ≠ e →
        (s.vacated i e).table = (s.table.set old.entry (if w.status = .retired ∧ w.useCount = 1 then none
            else some { w with useCount := w.useCount - 1 })).set e (some { v with useCount := v.useCount + 1 })
          ∧ (s.dropContext i).raw
            = if w.status = .retired ∧ w.useCount = 1 then s.raw.raise .templateFreed else s.raw) := by
  obtain ⟨none, dropped⟩ := State.dropContext_formDropped s i
  refine ⟨fun hc => ?_, fun old w hc hw => ?_⟩
  · obtain ⟨table, raw, -⟩ := none hc
    refine ⟨?_, raw⟩
    rw [State.vacated_table_eq (by rw [table]; exact hv), table]
  · have used := h.used hc hw
    obtain ⟨freed, lowered⟩ := dropped old w hc hw used
    have fate : (s.dropContext i).table = s.table.set old.entry
        (if w.status = .retired ∧ w.useCount = 1 then Option.none else some { w with useCount := w.useCount - 1 })
        ∧ (s.dropContext i).raw
          = if w.status = .retired ∧ w.useCount = 1 then s.raw.raise .templateFreed else s.raw := by
      split
      · rename_i last
        obtain ⟨table, raw, -⟩ := freed last.1 last.2
        exact ⟨table, raw⟩
      · rename_i stays
        obtain ⟨table, raw, -⟩ := lowered (by cases hs : w.status <;> simp_all)
        exact ⟨table, raw⟩
    obtain ⟨table, raw⟩ := fate
    refine ⟨fun he => ?_, fun hne => ⟨?_, raw⟩⟩
    · subst he
      cases hv.symm.trans hw
      have stays : ¬(v.status = .retired ∧ v.useCount = 1) := by simp [hl]
      rw [if_neg stays] at table raw
      refine ⟨?_, raw⟩
      have regained : { v with useCount := v.useCount - 1 + 1 } = v := by rw [Nat.sub_add_cancel used]
      rw [State.vacated_table_eq (u := { v with useCount := v.useCount - 1 }) (by rw [table, getElem_set_fin, if_pos rfl]),
        table, Vector.set_set]
      dsimp only
      rw [regained]
      exact tableSet_self hv
    · rw [State.vacated_table_eq (u := v) (by rw [table, getElem_set_fin, if_neg (Ne.symm hne)]; exact hv), table]

/-- R41: the station a COMPOSE leaves. -/
theorem Station.vacated_composed (st : Station) (form : Context) : st.vacated.composed g r form = { st with
    state := .composing, lock := .system, ctx := some form
    typeAhead := if r.keepTypeAhead then st.typeAhead else []
    overrun := if r.keepTypeAhead then st.overrun else false
    unlockAtEnd := r.unlock, reportSlot := if r.report then some g else none
    paint := { dirty := [], resume := some .clear, band := none, cursorPending := true, alarm := st.paint.alarm
               marker := .owed } } := by
  unfold Station.vacated Station.composed Station.formless Paint.setFull
  cases st.ctx <;> cases r.keepTypeAhead <;> rfl

/-- R39, R43: the slots a COMPOSE leaves. -/
theorem State.composeSucceeds_general (t : State) (built : Context) (h : GenId) :
    (t.composeSucceeds i g r built).general[h] = if h = g ∧ r.report = false then .free else t.general[h] := by
  rw [State.composeSucceeds_eq]
  dsimp only
  cases r.report with
  | true => simp
  | false =>
    simp only [Bool.false_eq_true, if_false, and_true]
    exact getElem_set_fin _ _ _ _

/-- R31, R32: the take of step 2 falls through the boundary of POOL LOW. -/
theorem poolFalls_iff (free k : Nat) : poolFalls free k = true ↔ 32 ≤ free ∧ free - k ≤ 31 := by
  simp [poolFalls, Config.poolLowMark, Nat.lt_iff_add_one_le]

/-- The use count of a version says nothing of the forms on it. -/
theorem FormComposed.of_useCount {n : Nat} {built ctx : Context}
    (h : FormComposed { v with useCount := n } r built ctx) : FormComposed v r built ctx := by
  obtain ⟨others, fixed, rows, tags, fixedUnmodified, rowsUnmodified, derived, home, atFixed, atRow⟩ := h
  exact ⟨others, fixed, rows, tags, fixedUnmodified, rowsUnmodified, fun sound => derived
    ⟨sound.band, sound.bandless, sound.rowLimit, sound.fixedRegion, sound.rowRegion, sound.entries⟩, home, atFixed, atRow⟩

/-- R41, R94: the form of a COMPOSE at the part, told of the version in the table. -/
theorem State.composedForm_composed {n : Nat} {built : Context} (hv : s.versionAt e = { v with useCount := n })
    (hb : buildContext v e r = .ok built) : FormComposed v r built (s.composedForm i r built) := by
  have version : s.versionAt built.entry = { v with useCount := n } := by rw [buildContext_entry hb, hv]
  have fresh : FreshForm (s.versionAt built.entry) r built := by
    rw [version]
    exact buildContext_fresh ((buildContext_useCount n).trans hb)
  have composed : FormComposed (s.versionAt built.entry) r built (s.composedForm i r built) :=
    FreshForm.composed (w := s.openWork i built) fresh
  rw [version] at composed
  exact composed.of_useCount

/-- Settles O30: the form by its parts, then the station, the pool, the table and the slots, each on its own. -/
theorem composeBuildsForm : Obligations.ComposeBuildsForm := by
  intro s g i c e v built h ready law hv hid hl hrows hpool hb apart
  extract_lets st inFixed home
  obtain ⟨-, -, succeeds⟩ := State.takeCompose_live (s := s.hunting) (i := i) (g := g) law hv hid hl
  obtain ⟨-, succeeds⟩ := succeeds hrows hpool
  have taken := succeeds built hb
  obtain ⟨n, version⟩ := State.vacated_version (s := s.hunting) (i := i) law hv hl
  have station := s.hunting.vacated_station (i := i) e
  have freeRows := s.hunting.vacated_freeRows (i := i) e
  have general := s.hunting.vacated_general (i := i) e
  have raw := s.hunting.vacated_raw (i := i) e
  obtain ⟨unused, uses⟩ := State.vacated_store (s := s.hunting) (i := i) law hv hl
  generalize s.hunting.vacated i e = u at *
  have takenVersion : (u.takeRows c.rows.length).versionAt e = { v with useCount := n } := by
    rw [State.versionAt, State.takeRows_table]
    exact version
  have form := State.composedForm_composed (i := i) takenVersion hb
  have slots : ∀ k : GenId, (s.hunting.takeCompose i g c).general[k]
      = if k = g ∧ c.report = false then .free
        else if some k = (s.station i).reportSlot then .free else s.general[k] := fun k => by
    rw [taken, State.composeSucceeds_general, State.takeRows_general, general, State.reportFreed_getElem]
    rfl
  have table : (s.hunting.takeCompose i g c).table = u.table := by
    rw [taken, State.composeSucceeds_eq]
    exact State.takeRows_table _ _
  have events : (s.hunting.takeCompose i g c).raw = if 32 ≤ s.freeRows + rowsHeld st
      ∧ s.freeRows + rowsHeld st - c.rows.length ≤ 31 then (s.hunting.dropContext i).raw.raise .poolLow
      else (s.hunting.dropContext i).raw := by
    rw [taken, State.composeSucceeds_eq]
    dsimp only
    rw [State.takeRows_raw, freeRows, raw]
    exact if_congr (poolFalls_iff _ _) rfl rfl
  refine ⟨_, (u.takeRows c.rows.length).composedForm i c built, exec_compose h ready,
    (State.takeCompose_only s.hunting g c).confined fun k hk hr => ?_, ?_, form.others, form.fixed, form.rows, form.tags,
    form.fixedUnmodified, form.rowsUnmodified, fun sound => form.derived ((templatesSound_iff.mp sound).2 e v hv), form.home,
    form.atFixed, form.atRow, ?_, ⟨fun hc => ?_, fun old w hc hw => ⟨fun same => ?_, fun other => ?_⟩⟩, ?_, fun k hk => ?_⟩
  · rw [slots, if_neg (by simp [hk]), if_neg hr]
  · rw [taken, State.composeSucceeds_station, State.takeRows_station, station, Station.vacated_composed]
    rfl
  · rw [taken, State.composeSucceeds_freeRows, State.takeRows_freeRows, freeRows]
    exact Nat.sub_add_cancel hpool
  · obtain ⟨added, kept⟩ := unused hc
    rw [table, events, kept]
    exact ⟨added, rfl⟩
  · obtain ⟨restored, kept⟩ := (uses old w hc hw).1 same
    rw [table, events, kept]
    exact ⟨restored, rfl⟩
  · obtain ⟨moved, lowered⟩ := (uses old w hc hw).2 other
    rw [table, events, lowered]
    exact ⟨moved, rfl⟩
  · rw [slots]
    cases c.report with
    | true => simp [Ne.symm apart]
    | false => simp
  · rw [slots, if_pos hk.symm, ite_self]

end Sys2Proof.Machine

/-! PROOFS. The display form of a number read back (R60, R61): its integer and fraction digits, the sign before them, and
the spaces that a reading takes off. -/

namespace Sys2Proof.Machine

/-! ### Digits -/

theorem digitCode_toNat (n : Nat) : (digitCode n).toNat = 0x30 + n % 10 := by
  rw [digitCode, BitVec.toNat_ofNat, Nat.mod_eq_of_lt (by omega)]

theorem isDigit_digitCode (n : Nat) : isDigit (digitCode n) = true := by
  simp only [isDigit, digitCode_toNat, Bool.and_eq_true, decide_eq_true_eq]
  omega

theorem ne_of_isDigit {c b : Byte} (h : isDigit c = true) (hb : isDigit b = false) : c ≠ b := by
  rintro rfl
  rw [h] at hb
  cases hb

/-- The value of a run of digits behind a value read before it. -/
theorem digitsValue_append (a b : Text) : digitsValue (a ++ b) = digitsValue a * 10 ^ b.length + digitsValue b := by
  have behind : ∀ (t : Text) (n : Nat), t.foldl (fun n c => 10 * n + (c.toNat - 0x30)) n
      = n * 10 ^ t.length + t.foldl (fun n c => 10 * n + (c.toNat - 0x30)) 0 := by
    intro t
    induction t with
    | nil => simp
    | cons c t ih =>
      intro n
      rw [List.foldl_cons, ih, List.foldl_cons, ih (10 * 0 + _), List.length_cons, Nat.pow_succ]
      ring
  rw [digitsValue, List.foldl_append, behind]
  rfl

theorem digitsValue_digitCode_cons (n : Nat) (t : Text) :
    digitsValue (digitCode n :: t) = n % 10 * 10 ^ t.length + digitsValue t := by
  rw [← List.singleton_append, digitsValue_append]
  simp [digitsValue, digitCode_toNat]

/-- The decimal digits of a number, in front of `tail`: digits alone, with that number as their value. -/
theorem decimalDigits_spec (fuel : Nat) {n : Nat} (h : n < 2 ^ fuel) (tail : Text) :
    ∃ digits : Text, decimalDigits fuel n tail = digits ++ tail ∧ (fuel ≠ 0 → digits ≠ [])
      ∧ digits.all isDigit = true ∧ digitsValue digits = n := by
  induction fuel generalizing n tail with
  | zero => exact ⟨[], rfl, fun h => (h rfl).elim, rfl, (Nat.lt_one_iff.mp h).symm⟩
  | succ fuel ih =>
    unfold decimalDigits
    split
    · rename_i hn
      refine ⟨[digitCode n], rfl, fun _ => List.cons_ne_nil _ _, by simp [isDigit_digitCode], ?_⟩
      rw [digitsValue_digitCode_cons]
      simp [digitsValue, Nat.mod_eq_of_lt hn]
    · obtain ⟨digits, shown, -, all, value⟩ :=
        ih (n := n / 10) (by rw [Nat.pow_succ] at h; omega) (digitCode (n % 10) :: tail)
      refine ⟨digits ++ [digitCode (n % 10)], by rw [shown, List.append_assoc]; rfl, fun _ => by simp,
        by simp [all, isDigit_digitCode], ?_⟩
      rw [digitsValue_append, value, digitsValue_digitCode_cons]
      simp only [List.length_cons, List.length_nil, digitsValue, List.foldl_nil]
      omega

/-- R61: an integer part: digits alone, at least one, with the number as their value. -/
theorem decimal_spec (n : Nat) :
    decimal n ≠ [] ∧ (decimal n).all isDigit = true ∧ digitsValue (decimal n) = n := by
  obtain ⟨digits, shown, some, all, value⟩ := decimalDigits_spec (n.log2 + 1) (n := n) Nat.lt_log2_self []
  have whole : decimal n = digits := by rw [decimal, shown, List.append_nil]
  exact whole ▸ ⟨some (Nat.succ_ne_zero _), all, value⟩

/-- R61: a fraction: digits alone, with the last places of the mantissa as their value. -/
theorem fractionDigits_spec (s n : Nat) :
    (fractionDigits s n).all isDigit = true ∧ digitsValue (fractionDigits s n) = n % 10 ^ s := by
  induction s with
  | zero => exact ⟨rfl, by simp [fractionDigits, digitsValue, Nat.mod_one]⟩
  | succ s ih =>
    obtain ⟨all, value⟩ := ih
    refine ⟨by simp [fractionDigits, isDigit_digitCode, all], ?_⟩
    rw [fractionDigits, digitsValue_digitCode_cons, value, fractionDigits_length, Nat.pow_succ, Nat.mod_mul]
    ring

/-! ### Digits read back (R60) -/

/-- R61: the digits of a magnitude in a field's scale, without its sign and its leading spaces. -/
def NumForm.shownDigits (f : NumForm) (n : Nat) : Text :=
  if f.scale > 0 then decimal (n / 10 ^ f.scale) ++ period :: fractionDigits f.scale n
  else decimal (n / 10 ^ f.scale)

theorem displayForm_some (f : NumForm) (m : Int) : displayForm f (some m)
    = padLeft f.width (if m < 0 then hyphen :: f.shownDigits m.natAbs else f.shownDigits m.natAbs) := rfl

theorem takeWhile_dropWhile_digits {digits : Text} (h : digits.all isDigit = true) {tail : Text}
    (ht : ∀ c ∈ tail.head?, isDigit c = false) :
    (digits ++ tail).takeWhile isDigit = digits ∧ (digits ++ tail).dropWhile isDigit = tail := by
  have digit : ∀ c ∈ digits, isDigit c = true := List.all_eq_true.mp h
  have stop : tail.takeWhile isDigit = [] ∧ tail.dropWhile isDigit = tail := by
    cases tail with
    | nil => exact ⟨rfl, rfl⟩
    | cons c tail =>
      have := ht c rfl
      exact ⟨List.takeWhile_cons_of_neg (by simp [this]), List.dropWhile_cons_of_neg (by simp [this])⟩
  rw [List.takeWhile_append_of_pos digit, List.dropWhile_append_of_pos digit, stop.1, stop.2, List.append_nil]
  exact ⟨rfl, rfl⟩

/-- R60: an entry of digits alone. -/
theorem parseMagnitude_whole {f : NumForm} {digits : Text} (all : digits.all isDigit = true) (present : digits ≠ [])
    (room : digits.length ≤ f.digits - f.scale) :
    parseMagnitude f digits = some (digitsValue digits * 10 ^ f.scale) := by
  obtain ⟨before, behind⟩ := takeWhile_dropWhile_digits all (tail := []) (by simp)
  rw [List.append_nil] at before behind
  simp [parseMagnitude, before, behind, present, room]

/-- R60: an entry of digits, a period and as many fraction digits as the field's scale. -/
theorem parseMagnitude_scaled {f : NumForm} {digits fraction : Text} (all : digits.all isDigit = true)
    (room : digits.length ≤ f.digits - f.scale) (hf : fraction.all isDigit = true) (scale : fraction.length = f.scale)
    (positive : f.scale ≠ 0) :
    parseMagnitude f (digits ++ period :: fraction)
      = some (digitsValue digits * 10 ^ f.scale + digitsValue fraction) := by
  obtain ⟨before, behind⟩ := takeWhile_dropWhile_digits all (tail := period :: fraction) fun _ h => by cases h; rfl
  simp [parseMagnitude, before, behind, hf, scale, positive, room]

/-- R60, R61: the digits shown for a magnitude that fits its field are read as that magnitude. -/
theorem parseMagnitude_shownDigits {f : NumForm} (hf : f.Roomy) {n : Nat} (hn : n < 10 ^ f.digits) :
    parseMagnitude f (f.shownDigits n) = some n := by
  have room : f.scale + 1 ≤ f.digits := hf
  obtain ⟨present, all, value⟩ := decimal_spec (n / 10 ^ f.scale)
  have whole : (decimal (n / 10 ^ f.scale)).length ≤ f.digits - f.scale := by
    refine decimal_length (by omega) ?_
    rw [Nat.div_lt_iff_lt_mul (by positivity), ← Nat.pow_add, Nat.sub_add_cancel (by omega)]
    exact hn
  unfold NumForm.shownDigits
  split
  · rename_i hs
    obtain ⟨fraction, places⟩ := fractionDigits_spec f.scale n
    rw [parseMagnitude_scaled all whole fraction (fractionDigits_length _ _) hs.ne', value, places,
      Nat.div_add_mod']
  · rename_i hs
    rw [parseMagnitude_whole all present whole, value, Nat.eq_zero_of_not_pos hs, Nat.pow_zero, Nat.mul_one,
      Nat.div_one]

/-! ### Spaces taken off (R60) -/

theorem trim_spaces (n : Nat) : trim (spaces n) = [] := by
  have dropped : (spaces n).dropWhile (· == space) = [] :=
    List.dropWhile_eq_nil_iff.mpr fun c hc => by simp [List.eq_of_mem_replicate hc]
  rw [trim, dropped]
  rfl

/-- A text with no space at either end is what is left of it behind leading spaces. -/
theorem trim_padLeft {t : Text} (w : Nat) (first : t.head? ≠ some space) (last : t.getLast? ≠ some space) :
    trim (padLeft w t) = t := by
  have lead : (padLeft w t).dropWhile (· == space) = t := by
    rw [padLeft, List.dropWhile_append_of_pos fun c hc => by simp [List.eq_of_mem_replicate hc]]
    cases t with
    | nil => rfl
    | cons c t => exact List.dropWhile_cons_of_neg (by simpa using first)
  have rear : t.reverse.dropWhile (· == space) = t.reverse := by
    rw [← List.head?_reverse] at last
    cases hr : t.reverse with
    | nil => rfl
    | cons c r => exact List.dropWhile_cons_of_neg (by simpa [hr] using last)
  rw [trim, lead, rear, List.reverse_reverse]

/-- R61: the digits shown begin and end with a digit. -/
theorem NumForm.shownDigits_ends (f : NumForm) (n : Nat) :
    (∃ c rest, f.shownDigits n = c :: rest ∧ isDigit c = true)
      ∧ ∃ c rest, f.shownDigits n = rest ++ [c] ∧ isDigit c = true := by
  obtain ⟨some, all, -⟩ := decimal_spec (n / 10 ^ f.scale)
  have digit : ∀ c ∈ decimal (n / 10 ^ f.scale), isDigit c = true := List.all_eq_true.mp all
  obtain ⟨c, rest, front⟩ := List.exists_cons_of_ne_nil some
  unfold NumForm.shownDigits
  split
  · rename_i hs
    have fraction := List.all_eq_true.mp (fractionDigits_spec f.scale n).1
    have places : fractionDigits f.scale n ≠ [] := by
      rw [← List.length_pos_iff, fractionDigits_length]; exact hs
    refine ⟨⟨c, rest ++ period :: fractionDigits f.scale n, by rw [front]; rfl, digit c (by simp [front])⟩,
      (fractionDigits f.scale n).getLast places,
      decimal (n / 10 ^ f.scale) ++ period :: (fractionDigits f.scale n).dropLast, ?_, fraction _ (List.getLast_mem _)⟩
    conv_lhs => rw [← List.dropLast_append_getLast places]
    simp
  · exact ⟨⟨c, rest, front, digit c (by simp [front])⟩, _, _, (List.dropLast_append_getLast some).symm,
      digit _ (List.getLast_mem _)⟩

/-! ### The display form read back (R60, R61) -/

/-- R60: an entry with a sign, in a signed field. -/
theorem parseEntry_of_signed {f : NumForm} {t body : Text} {m : Nat} (ht : t.length ≤ f.width)
    (shown : trim t = hyphen :: body) (hs : f.signed = true) (hm : parseMagnitude f body = some m) :
    parseEntry f t = some (some (-(m : Int))) := by
  simp [parseEntry, Nat.not_lt.mpr ht, shown, hs, hm]

/-- R60: an entry without a sign. -/
theorem parseEntry_of_digits {f : NumForm} {t body : Text} {c : Byte} {m : Nat} (ht : t.length ≤ f.width)
    (shown : trim t = c :: body) (hc : isDigit c = true) (hm : parseMagnitude f (c :: body) = some m) :
    parseEntry f t = some (some (m : Int)) := by
  have sign : c ≠ hyphen := ne_of_isDigit hc (by decide)
  simp [parseEntry, Nat.not_lt.mpr ht, shown, sign, hm]

/-- R60, R61: the display form of a value that fits its field is an entry of that value. -/
theorem parseEntry_displayForm {f : NumForm} (hf : f.Roomy) {o : Option Int} (ho : valueFits f o = true) :
    parseEntry f (displayForm f o) = some o := by
  have width := (displayForm_length hf ho).le
  cases o with
  | none =>
    rw [parseEntry, if_neg (Nat.not_lt.mpr width), displayForm, trim_spaces]
  | some m =>
    obtain ⟨hm, sign⟩ := valueFits_some.mp ho
    obtain ⟨⟨c, rest, front, hc⟩, d, before, back, hd⟩ := f.shownDigits_ends m.natAbs
    have read := parseMagnitude_shownDigits hf hm
    have first : c ≠ space := ne_of_isDigit hc (by decide)
    have last : d ≠ space := ne_of_isDigit hd (by decide)
    rw [displayForm_some] at width ⊢
    rcases lt_or_ge m 0 with hneg | hpos
    · rw [if_pos hneg] at width ⊢
      have signed : f.signed = true := by
        cases hs : f.signed with
        | true => rfl
        | false => exact absurd (sign hs) (Int.not_le.mpr hneg)
      have ends : (hyphen :: f.shownDigits m.natAbs).getLast? = some d := by
        rw [back, ← List.cons_append, List.getLast?_concat]
      have shown := trim_padLeft f.width (t := hyphen :: f.shownDigits m.natAbs)
        (fun h => absurd (Option.some.inj h) (by decide)) (by simpa [ends] using last)
      rw [parseEntry_of_signed width shown signed read]
      simp only [Option.some.injEq]
      omega
    · rw [if_neg (Int.not_lt.mpr hpos)] at width ⊢
      have shown := trim_padLeft f.width (t := f.shownDigits m.natAbs) (by simpa [front] using first)
        (by simpa [back] using last)
      rw [parseEntry_of_digits width (shown.trans front) hc (front ▸ read), Int.natAbs_of_nonneg hpos]

/-- R107: the values a field may hold, as the statements write them. -/
theorem valueFits_iff {f : NumForm} {m : Int} :
    valueFits f (some m) = true ↔ m.natAbs ≤ 10 ^ f.digits - 1 ∧ (f.signed = false → 0 ≤ m) := by
  have pos : 0 < 10 ^ f.digits := by positivity
  rw [valueFits_some]
  exact and_congr_left fun _ => by omega

/-- Settles O50: a value read from an entry fits its field, and what fits is shown in the field's width and read back. -/
theorem displayFormIsEntryOfValue : Obligations.DisplayFormIsEntryOfValue := by
  intro f hf
  refine ⟨fun t m h => valueFits_iff.mp (parseEntry_fits hf h), fun m hm hs => ?_, ?_, ?_⟩
  · have fits := valueFits_iff.mpr ⟨hm, hs⟩
    exact ⟨displayForm_length hf fits, parseEntry_displayForm hf fits⟩
  · exact displayForm_length hf (valueFits_none f)
  · exact parseEntry_displayForm hf (valueFits_none f)

end Sys2Proof.Machine

/-! PROOFS. A keystroke that ends in the station's lock, its form and what is to be painted: the operations it is made of,
one by one, and what the station and the part look like when the act is over (R49, R51). -/

namespace Sys2Proof.Machine

/-! ### What an act leaves alone -/

/-- The act has changed the lock, the form and what is to be painted, and nothing else. -/
def Work.Edited (w w' : Work) : Prop :=
  w' = { w with c := w'.c, st := { w.st with lock := w'.st.lock, paint := w'.st.paint } }

namespace Work.Edited

theorem refl (w : Work) : w.Edited w := rfl

theorem trans {a b c : Work} (h : a.Edited b) (k : b.Edited c) : a.Edited c := by
  unfold Work.Edited at *
  rw [k, h]

theorem foldl {α : Type} {f : Work → α → Work} (h : ∀ (w : Work) a, w.Edited (f w a)) (l : List α) (w : Work) :
    w.Edited (l.foldl f w) :=
  foldl_keeps (P := w.Edited) (fun b a hb => hb.trans (h b a)) l (refl w)

end Work.Edited

section
variable (w : Work)

theorem Work.dirty_edited (d : Dirty) : w.Edited (w.dirty d) := rfl

theorem Work.noteIndicator_edited {new : Work} (h : w.Edited new) : w.Edited (w.noteIndicator new) := by
  unfold Work.noteIndicator
  split
  · exact h
  · exact h.trans (new.dirty_edited _)

theorem Work.setAdjusted_edited (b : Bool) : w.Edited (w.setAdjusted b) := w.noteIndicator_edited rfl

theorem Work.setInsertMode_edited (b : Bool) : w.Edited (w.setInsertMode b) := w.noteIndicator_edited rfl

theorem Work.setEditing_edited (b : Bool) : w.Edited (w.setEditing b) := rfl

theorem Work.alarm_edited : w.Edited w.alarm := rfl

theorem Work.operatorError_edited (code : ErrorCode) : w.Edited (w.operatorError code) :=
  (w.noteIndicator_edited (new := { w with st := { w.st with lock := .operatorError code } }) rfl).trans
    (Work.alarm_edited _)

theorem Work.moveCursor_edited (q : Pos) : w.Edited (w.moveCursor q) := by
  unfold Work.moveCursor
  split <;> exact rfl

theorem Work.setFirst_edited (f : Nat) : w.Edited (w.setFirst f) := by
  unfold Work.setFirst
  split <;> exact rfl

theorem Work.dirtyInst_edited (r : InstRef) : w.Edited (w.dirtyInst r) := by
  unfold Work.dirtyInst
  repeat' split
  all_goals exact rfl

theorem Work.putInst_edited (r : InstRef) (x : FieldInst) : w.Edited (w.putInst r x) := by
  have written : ∀ f, w.Edited { w with c := w.c.modInst r f } := fun _ => rfl
  unfold Work.putInst
  split
  · dsimp only
    split
    · exact written _
    · exact (written _).trans (Work.dirtyInst_edited _ _)
  · exact .refl w

theorem Work.compute_edited (r : InstRef) : w.Edited (w.compute r) := by
  unfold Work.compute
  split
  · exact w.putInst_edited _ _
  · exact .refl w

theorem Work.tally_edited (l : List (Nat × Nat)) : w.Edited (w.tally l) := by
  have products : w.Edited (w.computeProductsOf l).1 :=
    foldl_keeps (P := fun p : Work × List Nat => w.Edited p.1) (f := Work.computeProduct)
      (fun p _ hp => hp.trans (p.1.compute_edited _)) _ (b := (w, _)) (.refl w)
  exact products.trans (.foldl (fun w _ => w.compute_edited _) _ _)

theorem Work.exitField_passed_edited {w' : Work} {negate : Bool} {l : List (Nat × Nat)}
    (h : w.exitField negate = .passed w' l) : w.Edited w' := by
  unfold Work.exitField at h
  split at h
  · cases h; exact .refl w
  split at h
  · cases h; exact .refl w
  split at h
  · cases h
  · cases h
    have put : ∀ r x, w.Edited ((w.putInst r x).setEditing false) := fun r x =>
      (w.putInst_edited r x).trans (Work.setEditing_edited _ _)
    split
    · exact (put _ _).trans (Work.setAdjusted_edited _ _)
    · exact put _ _

theorem Work.exitField_failed_edited {w' : Work} {negate : Bool} (h : w.exitField negate = .failed w') :
    w.Edited w' := by
  unfold Work.exitField at h
  split at h
  · cases h
  split at h
  · cases h
  split at h
  · cases h
    exact (w.moveCursor_edited _).trans (Work.operatorError_edited _ _)
  · cases h

theorem Work.exitThenMove_edited (b n : Bool) (l : List (Nat × Nat)) (f : Nat) (q : Pos) :
    w.Edited (w.exitThenMove b n l f q) := by
  unfold Work.exitThenMove
  split
  · rename_i w' h
    have failed : w.Edited w' := by
      split at h
      · exact w.exitField_failed_edited h
      · cases h
    exact failed.trans (w'.tally_edited l)
  · rename_i w' changed h
    have passed : w.Edited w' := by
      split at h
      · exact w.exitField_passed_edited h
      · cases h; exact .refl w
    exact ((passed.trans (w'.tally_edited _)).trans (Work.setFirst_edited _ _)).trans (Work.moveCursor_edited _ _)

/-! ### The lock an act ends under -/

/-- The lock is read off the seat of the act. -/
theorem Work.lock_eq_of_seat {w w' : Work} (h : w'.seat = w.seat) : w'.st.lock = w.st.lock := congrArg Seat.lock h

@[simp] theorem Work.setAdjusted_lock (b : Bool) : (w.setAdjusted b).st.lock = w.st.lock :=
  lock_eq_of_seat (w.setAdjusted_seat b)

@[simp] theorem Work.operatorError_lock (code : ErrorCode) : (w.operatorError code).st.lock = .operatorError code :=
  congrArg Seat.lock (w.operatorError_seat code)

@[simp] theorem Work.operatorError_alarm (code : ErrorCode) : (w.operatorError code).st.paint.alarm = true := rfl

@[simp] theorem Work.tally_lock (l : List (Nat × Nat)) : (w.tally l).st.lock = w.st.lock :=
  lock_eq_of_seat (w.tally_seat l)

end

/-! ### An ALARM stays pending (R51) -/

section
variable (p : Paint) (b : Bool) (d : Dirty)

@[simp] theorem Paint.append_alarm : (p.append b d).alarm = p.alarm := by
  unfold Paint.append; split <;> rfl

@[simp] theorem Paint.insert_alarm : (p.insert b d).alarm = p.alarm := by
  unfold Paint.insert
  repeat' split
  all_goals simp

@[simp] theorem Paint.add_alarm : (p.add b d).alarm = p.alarm := by
  unfold Paint.add
  repeat' split
  all_goals simp

end

section
variable (w : Work)

@[simp] theorem Work.dirtyInst_alarm (r : InstRef) : (w.dirtyInst r).st.paint.alarm = w.st.paint.alarm := by
  unfold Work.dirtyInst Work.dirty
  repeat' split
  all_goals simp

@[simp] theorem Work.putInst_alarm (r : InstRef) (x : FieldInst) :
    (w.putInst r x).st.paint.alarm = w.st.paint.alarm := by
  unfold Work.putInst
  split
  · dsimp only; split <;> simp
  · rfl

@[simp] theorem Work.compute_alarm (r : InstRef) : (w.compute r).st.paint.alarm = w.st.paint.alarm := by
  unfold Work.compute
  split
  · exact w.putInst_alarm _ _
  · rfl

@[simp] theorem Work.tally_alarm (l : List (Nat × Nat)) : (w.tally l).st.paint.alarm = w.st.paint.alarm :=
  (foldl_measure (g := fun w : Work => w.st.paint.alarm) (fun w _ => w.compute_alarm _) _ _).trans
    (foldl_measure (g := fun p : Work × List Nat => p.1.st.paint.alarm) (f := Work.computeProduct)
      (fun p _ => p.1.compute_alarm _) _ (w, _))

end

/-! ### A keystroke as an act (R25, R49, R51) -/

/-- R51: the act of a keystroke, with the adjusted notice cleared. -/
def State.keyWork (s : State) (i : StationId) (c : Context) : Work := (s.openWork i c).setAdjusted false

section
variable {s : State} {i : StationId} {v : TemplateVersion} {c : Context}

@[simp] theorem State.keyWork_c : (s.keyWork i c).c = { c with adjusted := false } := Work.setAdjusted_c _ _

theorem Keying.keyWork_v (h : Keying s i v c) : (s.keyWork i c).v = v :=
  (Work.setAdjusted_v _ _).trans h.2.2.2

theorem Keying.keyWork_lock (h : Keying s i v c) : (s.keyWork i c).st.lock = .none :=
  (Work.setAdjusted_lock _ _).trans h.2.1

/-- R25, R49: a key that the station applies. -/
theorem Keying.deliverKey (h : Keying s i v c) {k : Byte} {key : Key} (hk : decodeKey k = some key) :
    State.deliverKey i s k = s.closeWork i ((s.keyWork i c).applyDecoded key) := by
  obtain ⟨hs, hl, hc, -⟩ := h
  unfold State.deliverKey
  rw [hs, hl]
  simp only [State.act, hc, Work.applyKey, hk]
  rfl

/-- A key whose act is quiet ends in its station alone. -/
theorem Keying.deliverKey_edited (h : Keying s i v c) {k : Byte} {key : Key} (hk : decodeKey k = some key)
    {w : Work} (applied : (s.keyWork i c).applyDecoded key = w) (he : (s.keyWork i c).Edited w) :
    State.deliverKey i s k
      = s.setStation i { s.station i with lock := w.st.lock, ctx := some w.c, paint := w.st.paint } := by
  have whole : (s.openWork i c).Edited w := ((s.openWork i c).setAdjusted_edited false).trans he
  rw [h.deliverKey hk, applied, whole]
  exact State.closeWork_quiet rfl rfl rfl

/-- A key whose act is quiet: the station and the part when it is over. -/
theorem Keying.keyed (h : Keying s i v c) {k : Byte} {key : Key} (hk : decodeKey k = some key)
    {w : Work} (applied : (s.keyWork i c).applyDecoded key = w) (he : (s.keyWork i c).Edited w)
    {lock : Lock} (hl : w.st.lock = lock) :
    Keyed s (State.deliverKey i s k) i lock w.c ∧ ((State.deliverKey i s k).station i).paint = w.st.paint := by
  rw [h.deliverKey_edited hk applied he]
  unfold Keyed
  rw [State.station_setStation_self, hl]
  exact ⟨⟨rfl, rfl⟩, rfl⟩

/-- R70: a key that is refused with an operator error. -/
theorem Keying.refused (h : Keying s i v c) {k : Byte} {key : Key} (hk : decodeKey k = some key)
    {code : ErrorCode} (applied : (s.keyWork i c).applyDecoded key = (s.keyWork i c).operatorError code) :
    KeyRefused s (State.deliverKey i s k) i code { c with adjusted := false } := by
  obtain ⟨keyed, paint⟩ := h.keyed hk applied (Work.operatorError_edited _ _) (Work.operatorError_lock _ _)
  rw [Work.operatorError_c, State.keyWork_c] at keyed
  exact ⟨keyed, by rw [paint]; rfl⟩

end

end Sys2Proof.Machine

/-! PROOFS. The field exit of a keystroke (R59, R62, R63): what is under the cursor while its instance is edited, the exit
that fails and the exit that passes, and the move as TAB. -/

namespace Sys2Proof.Machine

/-! ### Forms with the same rows, window and cursor -/

section
variable {v : TemplateVersion} {c c' : Context}

theorem slotRow_frame (h : SameFrame c c') (k : Nat) : c'.slotRow k = c.slotRow k := by
  simp only [Context.slotRow, h.rows, h.first]

theorem instAt_frame (h : SameFrame c c') (q : Pos) : instAt v c' q = instAt v c q := by
  simp only [instAt, slotRow_frame h]

theorem fieldStart_frame (h : SameFrame c c') (r : InstRef) : fieldStart v c' r = fieldStart v c r := by
  simp only [fieldStart, h.first, h.cursor]

theorem tabStarts_frame (h : SameFrame c c') : tabStarts v c' = tabStarts v c := by
  simp only [tabStarts, slotRow_frame h]

theorem homePos_frame (h : SameFrame c c') : homePos v c' = homePos v c := by
  simp only [homePos, tabStarts_frame h]

theorem under_frame (h : SameFrame c c') {u : Under} (hu : under v c = some u) {x : FieldInst}
    (hx : c'.inst? u.ref = some x) : under v c' = some { u with inst := x } := by
  obtain ⟨hat, hd, -⟩ := under_some hu
  rw [under, instAt_frame h, h.cursor, hat]
  simp only [Option.bind_some, hd, hx, Option.map_some]

theorem nextTab_frame (h : SameFrame c c') (q : Pos) : nextTab v c' q = nextTab v c q := by
  unfold nextTab
  rw [tabStarts_frame h, homePos_frame h]

theorem Work.tabDecision_frame {w w' : Work} (hv : w'.v = w.v) (h : SameFrame w.c w'.c) :
    w'.tabDecision = w.tabDecision := by
  have foot : w'.atFoot = w.atFoot := by
    unfold Work.atFoot Work.rowCount
    rw [hv, h.first, h.cursor, h.rows]
  unfold Work.tabDecision Work.footTarget
  rw [foot, hv, h.first, h.cursor, nextTab_frame h]

end

/-! ### One instance written again -/

theorem Context.modInst_flags (c : Context) (r : InstRef) (f : FieldInst → FieldInst) (editing adjusted : Bool) :
    ({ c with editing := editing, adjusted := adjusted } : Context).modInst r f
      = { c.modInst r f with editing := editing, adjusted := adjusted } := by
  cases r with
  | fixed j => rfl
  | row p j => unfold Context.modInst; dsimp only; split <;> rfl

theorem Context.modInst_modInst (c : Context) (r : InstRef) (f g : FieldInst → FieldInst) :
    (c.modInst r f).modInst r g = c.modInst r (g ∘ f) := by
  cases r with
  | fixed j => simp [Context.modInst, modifyNth, List.modify_modify_eq]
  | row p j =>
    unfold Context.modInst
    dsimp only
    split
    · rfl
    · simp [modifyNth, List.modify_modify_eq, Function.comp_def]

/-- A change of the instance a reference names is that instance put in its place. -/
theorem Context.modInst_of_inst {c : Context} {r : InstRef} {x : FieldInst} (h : c.inst? r = some x)
    (f : FieldInst → FieldInst) : c.modInst r f = c.modInst r fun _ => f x := by
  have at_index : ∀ {α : Type} (l : List α) (k : Nat) (g g' : α → α), (∀ a, l[k]? = some a → g a = g' a) →
      modifyNth l k g = modifyNth l k g' := fun l k g g' hg => by
    refine List.ext_getElem? fun j => ?_
    simp only [modifyNth, List.getElem?_modify]
    cases ha : l[j]? with
    | none => rfl
    | some a =>
      by_cases e : k = j
      · subst e; simp [hg a ha]
      · simp [e]
  cases r with
  | fixed j =>
    have same := at_index c.fixed j f (fun _ => f x) fun a ha => by cases ha.symm.trans h; rfl
    simp only [Context.modInst, same]
  | row p j =>
    obtain ⟨row, hrow, hj⟩ := Option.bind_eq_some_iff.mp h
    obtain ⟨-, hrow⟩ := Context.row?_eq_some.mp hrow
    have inside := at_index row.insts j f (fun _ => f x) fun a ha => by cases ha.symm.trans hj; rfl
    have same := at_index c.rows (p - 1) (fun y => { y with insts := modifyNth y.insts j f })
      (fun y => { y with insts := modifyNth y.insts j fun _ => f x }) fun a ha => by
        cases ha.symm.trans hrow; simp only [inside]
    simp only [Context.modInst, same]

theorem Context.inst?_written {c : Context} {r : InstRef} {y : FieldInst} (h : c.inst? r = some y) (x : FieldInst) :
    (c.modInst r fun _ => x).inst? r = some x := by
  rw [Context.inst?_modInst, if_pos rfl, h, Option.map_some]

/-- `c'` differs from `c` in the instance a reference names and in the flags of an edit alone. -/
def Reedited (c c' : Context) (r : InstRef) : Prop :=
  ∀ z, c'.modInst r (fun _ => z)
    = { c.modInst r (fun _ => z) with editing := c'.editing, adjusted := c'.adjusted }

theorem Reedited.flags (c : Context) (r : InstRef) (editing adjusted : Bool) :
    Reedited c { c with editing := editing, adjusted := adjusted } r := fun _ => Context.modInst_flags _ _ _ _ _

theorem Reedited.modInst (c : Context) (r : InstRef) (x : FieldInst) (editing adjusted : Bool) :
    Reedited c { c.modInst r (fun _ => x) with editing := editing, adjusted := adjusted } r := fun z => by
  rw [Context.modInst_flags, Context.modInst_modInst]
  rfl

/-! ### The Tally Unit behind an exit (R94) -/

theorem Tallied.computeProductsOf (w : Work) (l : List (Nat × Nat)) :
    (w.computeProductsOf l).1.v = w.v ∧ Tallied w.v w.c (w.computeProductsOf l).1.c :=
  foldl_keeps (P := fun p : Work × List Nat => p.1.v = w.v ∧ Tallied w.v w.c p.1.c) (f := Work.computeProduct)
    (fun p r ⟨version, h⟩ => ⟨(p.1.compute_keeps _).version.trans version,
      h.trans (version ▸ Tallied.compute p.1 (.row r.1 r.2))⟩) _ (b := (w, _)) ⟨rfl, .refl _ _⟩

theorem Tallied.computeSumsOf (w : Work) (ids : List Nat) : Tallied w.v w.c (w.computeSumsOf ids).c := by
  have sums : w.computeSumsOf ids = ((pick w.v.fixed (isSumOf ids)).map .fixed).foldl Work.compute w :=
    List.foldl_map.symm
  rw [sums]
  exact Tallied.computeAll _ w

/-- R94: a tally computes derived instances alone. -/
theorem Tallied.tally (w : Work) (l : List (Nat × Nat)) : Tallied w.v w.c (w.tally l).c := by
  obtain ⟨version, products⟩ := Tallied.computeProductsOf w l
  exact products.trans (version ▸ Tallied.computeSumsOf _ _)

/-- R94: no changed operand calls for no computation. -/
@[simp] theorem Work.tally_nil (w : Work) : w.tally [] = w := by
  have noProducts : ∀ d, isProductOf [] d = false := fun d => by unfold isProductOf; split <;> rfl
  have noSums : ∀ d, isSumOf [] d = false := fun d => by unfold isSumOf; split <;> rfl
  have pickNone : ∀ (l : List FieldDef) test, (∀ d, test d = false) → pick l test = [] := fun l test h =>
    List.eq_nil_iff_forall_not_mem.mpr fun j hj => by
      obtain ⟨d, -, hd⟩ := mem_pick.mp hj
      rw [h d] at hd
      cases hd
  have products : w.computeProductsOf [] = (w, []) := by
    have targets : ∀ n : List Nat, n.flatMap (fun _ => ([] : List (Nat × Nat))) = [] := fun n => by simp
    simp [Work.computeProductsOf, pickNone _ _ noProducts, targets]
  simp [Work.tally, products, Work.computeSumsOf, pickNone _ _ noSums]

/-! ### The exit of an instance (R59, R63) -/

section
variable {w : Work} {u : Under} {negate : Bool}

theorem Work.exitField_idle (h : w.c.editing = false ∨ w.under = none) (negate : Bool) :
    w.exitField negate = .passed w [] := by
  unfold Work.exitField
  split
  · rfl
  · rename_i hu
    rcases h with h | h
    · simp [h]
    · rw [h] at hu; cases hu

theorem Work.exitField_error (hu : w.under = some u) (he : w.c.editing = true) {code : ErrorCode}
    (hx : exitCheck u.field u.inst negate = .error code) :
    w.exitField negate = .failed ((w.moveCursor (fieldStart w.v w.c u.ref)).operatorError code) := by
  simp [Work.exitField, hu, he, hx]

/-- R62: what is no NUMERIC instance keeps its value. -/
theorem exitCheck_value {d : FieldDef} (hd : isNumeric d = false) {x : FieldInst} {y : Checked}
    (h : exitCheck d x negate = .ok y) : y.value = x.value := by
  unfold exitCheck at h
  split at h
  · rename_i hk
    simp [isNumeric, hk] at hd
  · rw [fillCheck_ok h]

theorem isNumeric_of_isDerived {d : FieldDef} (h : isDerived d = true) : isNumeric d = false := by
  unfold isDerived at h
  unfold isNumeric
  split at h <;> simp_all

/-- R63: what a passed exit calls for computations of. -/
def exitChanges (u : Under) (y : Checked) : List (Nat × Nat) :=
  if y.value = u.inst.value then [] else changedRow u.ref

theorem Work.exitField_ok (hu : w.under = some u) (he : w.c.editing = true) (ha : w.c.adjusted = false) {y : Checked}
    (hy : exitCheck u.field u.inst negate = .ok y) :
    ∃ w', w.exitField negate = .passed w' (exitChanges u y) ∧ w'.v = w.v ∧ w'.st.lock = w.st.lock
      ∧ w'.c = { w.c.modInst u.ref (fun _ => y.leaves u.inst) with editing := false, adjusted := y.adjusted } := by
  have present := (under_some hu).2.2
  have flags : (w.c.modInst u.ref fun _ => y.leaves u.inst).adjusted = false := by
    rw [Context.modInst_others]; exact ha
  have form : ((w.putInst u.ref (y.leaves u.inst)).setEditing false).c
      = { w.c.modInst u.ref (fun _ => y.leaves u.inst) with editing := false } := by simp [present]
  have lock : ((w.putInst u.ref (y.leaves u.inst)).setEditing false).st.lock = w.st.lock :=
    Work.lock_eq_of_seat (by simp)
  refine ⟨if y.adjusted then ((w.putInst u.ref (y.leaves u.inst)).setEditing false).setAdjusted true
    else (w.putInst u.ref (y.leaves u.inst)).setEditing false, ?_, ?_, ?_, ?_⟩
  · simp only [Work.exitField, hu, he, hy, Bool.not_true, Bool.false_eq_true, if_false]
    rfl
  · split <;> simp
  · split <;> simp [lock]
  · split
    · rename_i h
      rw [Work.setAdjusted_c, form, h]
    · rename_i h
      rw [form, Bool.eq_false_of_not_eq_true h, ← flags]

end

/-! ### The exit and the move, at the station -/

/-- The act `w` edits the instance `u` of the form `c`. -/
structure Work.Editing (w : Work) (v : TemplateVersion) (c : Context) (u : Under) : Prop where
  version : w.v = v
  lock : w.st.lock = .none
  under : Machine.under v w.c = some u
  editing : w.c.editing = true
  adjusted : w.c.adjusted = false
  frame : SameFrame c w.c
  form : Reedited c w.c u.ref

section
variable {w : Work} {v : TemplateVersion} {c : Context} {u : Under} {negate : Bool}

theorem Work.Editing.workUnder (h : w.Editing v c u) : w.under = some u := by
  rw [Work.under, h.version]; exact h.under

/-- R63: a failed exit puts the cursor at the field start and sets the operator error. -/
theorem Work.Editing.error (h : w.Editing v c u) {code : ErrorCode}
    (hx : exitCheck u.field u.inst negate = .error code) (l : List (Nat × Nat)) (f : Nat) (q : Pos) :
    w.exitThenMove true negate l f q = ((w.moveCursor (fieldStart v c u.ref)).operatorError code).tally l := by
  have start : fieldStart w.v w.c u.ref = fieldStart v c u.ref := by rw [h.version, fieldStart_frame h.frame]
  simp only [Work.exitThenMove, if_true, Work.exitField_error h.workUnder h.editing hx, start]

/-- R63, R77: a passed exit leaves the instance as the check decided, and then the window and the cursor move. -/
theorem Work.Editing.ok (h : w.Editing v c u) {y : Checked} (hy : exitCheck u.field u.inst negate = .ok y)
    {l : List (Nat × Nat)} (hl : isDerived u.field = true → l = []) (f : Nat) (q : Pos) :
    (w.exitThenMove true negate l f q).st.lock = .none
      ∧ Exited v c u.ref (y.leaves u.inst) y.adjusted (w.exitThenMove true negate l f q).c
      ∧ (w.exitThenMove true negate l f q).c.first = f ∧ (w.exitThenMove true negate l f q).c.cursor = q := by
  obtain ⟨w', passed, version, lock, form⟩ := Work.exitField_ok h.workUnder h.editing h.adjusted hy
  obtain ⟨-, defined, present⟩ := under_some h.under
  set changed := if l.isEmpty then exitChanges u y else l with hchanged
  have moved : w.exitThenMove true negate l f q = ((w'.tally changed).setFirst f).moveCursor q := by
    simp only [Work.exitThenMove, if_true, passed, hchanged]
  have tallied := version.trans h.version ▸ Tallied.tally w' changed
  have written : w'.c.inst? u.ref = some (y.leaves u.inst) := by
    rw [form]
    exact Context.inst?_written present _
  have left : (w'.tally changed).c.inst? u.ref = some (y.leaves u.inst) := by
    cases derived : isDerived u.field with
    | false => exact (tallied.entered u.ref u.field defined derived).trans written
    | true =>
      have idle : changed = [] := by
        have := exitCheck_value (isNumeric_of_isDerived derived) hy
        simp [hchanged, hl derived, exitChanges, this]
      rw [idle, Work.tally_nil]
      exact written
  have ends : (w.exitThenMove true negate l f q).c = { (w'.tally changed).c with first := f, cursor := q } := by
    rw [moved, Work.moveCursor_c, Work.setFirst_c]
  rw [form, h.form] at tallied
  rw [ends]
  refine ⟨?_, ⟨by rw [tallied.others], left, tallied.fixedKept, tallied.rowKept⟩, rfl, rfl⟩
  rw [moved, Work.lock_eq_of_seat (Work.moveCursor_seat _ _), Work.lock_eq_of_seat (Work.setFirst_seat _ _),
    Work.tally_lock, lock, h.lock]

end

end Sys2Proof.Machine

/-! PROOFS. A keystroke that exits a field, at the station (R59, R63), and TAB from an edited field (R60 to R64). -/

namespace Sys2Proof.Machine

section
variable {s : State} {i : StationId} {v : TemplateVersion} {c : Context} {u : Under}

/-! ### The act of a key, with the instance under the cursor in edit -/

theorem Keying.keyWork_under (h : Keying s i v c) : (s.keyWork i c).under = under v c := by
  rw [Work.under, h.keyWork_v, State.keyWork_c]
  rfl

/-- An instance in edit when the key comes. -/
theorem Keying.inEdit (h : Keying s i v c) (hu : under v c = some u) (he : c.editing = true) :
    (s.keyWork i c).Editing v c u where
  version := h.keyWork_v
  lock := h.keyWork_lock
  under := by rw [State.keyWork_c]; exact hu
  editing := by rw [State.keyWork_c]; exact he
  adjusted := by rw [State.keyWork_c]
  frame := by rw [State.keyWork_c]; exact ⟨rfl, rfl, rfl⟩
  form := by rw [State.keyWork_c]; exact .flags c u.ref c.editing false

/-- The act of a key that has put the instance `x` under the cursor. -/
def State.editWork (s : State) (i : StationId) (c : Context) (u : Under) (x : FieldInst) : Work :=
  ((s.keyWork i c).putInst u.ref x).setEditing true

theorem State.editWork_edited (s : State) (i : StationId) (c : Context) (u : Under) (x : FieldInst) :
    (s.keyWork i c).Edited (s.editWork i c u x) :=
  (Work.putInst_edited _ _ _).trans (Work.setEditing_edited _ _)

theorem State.editWork_c (hu : under v c = some u) (x : FieldInst) :
    (s.editWork i c u x).c = { c.modInst u.ref (fun _ => x) with editing := true, adjusted := false } := by
  have present : ({ c with adjusted := false } : Context).inst? u.ref = some u.inst := (under_some hu).2.2
  rw [State.editWork, Work.setEditing_c, Work.putInst_c, State.keyWork_c, present, Option.isSome_some, if_pos rfl,
    Context.modInst_flags c u.ref _ c.editing false]

theorem State.editWork_frame (hu : under v c = some u) (x : FieldInst) : SameFrame c (s.editWork i c u x).c := by
  rw [State.editWork_c hu]
  exact (SameFrame.modInst c u.ref _).trans ⟨rfl, rfl, rfl⟩

/-- An instance that the key itself has edited. -/
theorem Keying.edits (h : Keying s i v c) (hu : under v c = some u) (x : FieldInst) :
    (s.editWork i c u x).Editing v c { u with inst := x } where
  version := (Work.putInst_v _ _ _).trans h.keyWork_v
  lock := (Work.lock_eq_of_seat (Work.putInst_seat _ _ _)).trans h.keyWork_lock
  under := by
    refine under_frame (State.editWork_frame hu x) hu ?_
    rw [State.editWork_c hu]
    exact Context.inst?_written (under_some hu).2.2 x
  editing := by rw [State.editWork_c hu]
  adjusted := by rw [State.editWork_c hu]
  frame := State.editWork_frame hu x
  form := by rw [State.editWork_c hu]; exact .modInst c u.ref x true false

/-! ### The exit at the station -/

section
variable (h : Keying s i v c) {k : Byte} {key : Key} (hk : decodeKey k = some key) {w : Work} {negate : Bool}
  {l : List (Nat × Nat)} {f : Nat} {q : Pos}
  (applied : (s.keyWork i c).applyDecoded key = w.exitThenMove true negate l f q)
  (edited : (s.keyWork i c).Edited w) (hw : w.Editing v c u)
include h hk applied edited hw

/-- R63: a failed exit locks the keyboard; what the key wrote stays, and so do the computations it called for. -/
theorem Keying.exitFails {code : ErrorCode} (hx : exitCheck u.field u.inst negate = .error code) :
    KeyRefused s (State.deliverKey i s k) i code
      (((w.moveCursor (fieldStart v c u.ref)).operatorError code).tally l).c := by
  rw [hw.error hx] at applied
  have ends := ((edited.trans (w.moveCursor_edited (fieldStart v c u.ref))).trans
    (Work.operatorError_edited _ code)).trans (Work.tally_edited _ l)
  obtain ⟨keyed, paint⟩ := h.keyed hk applied ends ((Work.tally_lock _ l).trans (Work.operatorError_lock _ code))
  exact ⟨keyed, by rw [paint, Work.tally_alarm, Work.operatorError_alarm]⟩

/-- R63: a passed exit, and the move that follows it. -/
theorem Keying.exitPasses {y : Checked} (hy : exitCheck u.field u.inst negate = .ok y)
    (hl : isDerived u.field = true → l = []) : ∃ c', Keyed s (State.deliverKey i s k) i .none c'
      ∧ Exited v c u.ref (y.leaves u.inst) y.adjusted c' ∧ c'.first = f ∧ c'.cursor = q := by
  obtain ⟨lock, left⟩ := hw.ok hy hl f q
  exact ⟨_, (h.keyed hk applied (edited.trans (Work.exitThenMove_edited _ _ _ _ _ _)) lock).1, left⟩

end

section
variable (h : Keying s i v c) {k : Byte} {key : Key} (hk : decodeKey k = some key) {w : Work} {negate : Bool}
  {f : Nat} {q : Pos} (applied : (s.keyWork i c).applyDecoded key = w.exitThenMove true negate [] f q)
  (edited : (s.keyWork i c).Edited w) (hw : w.Editing v c u)
include h hk applied edited hw

/-- R63: a failed exit of a key that has changed no committed value. -/
theorem Keying.exitRefused {code : ErrorCode} (hx : exitCheck u.field u.inst negate = .error code) :
    KeyRefused s (State.deliverKey i s k) i code { w.c with cursor := fieldStart v c u.ref } := by
  have refused := h.exitFails hk applied edited hw hx
  rwa [Work.tally_nil, Work.operatorError_c, Work.moveCursor_c] at refused

end

/-! ### The move as TAB (R85) -/

theorem Work.exitThenMove_idle {w : Work} (hw : w.c.editing = false ∨ w.under = none) (b negate : Bool) (f : Nat)
    (q : Pos) : w.exitThenMove b negate [] f q = (w.setFirst f).moveCursor q := by
  have passed : (if b then w.exitField negate else .passed w []) = .passed w [] := by
    cases b
    · rfl
    · exact Work.exitField_idle hw negate
  unfold Work.exitThenMove
  rw [passed]
  simp

/-- R78, R85: where a TAB without an edit goes. -/
theorem Keying.movedAsTab (h : Keying s i v c) {c' : Context} (hf : c'.first = (s.keyWork i c).tabDecision.1)
    (hq : c'.cursor = (s.keyWork i c).tabDecision.2) : MovedAsTab s i c c' := by
  obtain ⟨hs, hl, hc, hv⟩ := h
  let d : Context := { c with editing := false }
  let idle := s.setStation i { s.station i with ctx := some d }
  have keying : Keying idle i v d := by
    refine ⟨?_, ?_, ?_, hv⟩ <;> rw [State.station_setStation_self]
    · exact hs
    · exact hl
  have same : (idle.keyWork i d).tabDecision = (s.keyWork i c).tabDecision := by
    refine Work.tabDecision_frame ?_ ?_
    · rw [keying.keyWork_v, Keying.keyWork_v ⟨hs, hl, hc, hv⟩]
    · rw [State.keyWork_c, State.keyWork_c]
      exact ⟨rfl, rfl, rfl⟩
  have moves := Work.exitThenMove_idle (w := idle.keyWork i d) (.inl (by rw [State.keyWork_c])) true false
    (idle.keyWork i d).tabDecision.1 (idle.keyWork i d).tabDecision.2
  obtain ⟨⟨-, station⟩, -⟩ := keying.keyed (k := 0x90) (key := .tab) rfl moves
    ((Work.setFirst_edited _ _).trans (Work.moveCursor_edited _ _)) rfl
  refine ⟨_, congrArg Station.ctx station, ?_, ?_⟩
  · rw [Work.moveCursor_c, Work.setFirst_c, same, hf]
  · rw [Work.moveCursor_c, same, hq]

/-- R85: an edit that exits as TAB goes where a TAB without an edit goes. -/
theorem Keying.editWork_tabDecision (h : Keying s i v c) (hu : under v c = some u) (x : FieldInst) :
    (s.editWork i c u x).tabDecision = (s.keyWork i c).tabDecision := by
  have frame := State.editWork_frame (s := s) (i := i) hu x
  refine Work.tabDecision_frame ((h.edits hu x).version.trans h.keyWork_v.symm) ?_
  rw [State.keyWork_c]
  exact ⟨frame.rows, frame.first, frame.cursor⟩

/-- R85: a key that edits the instance under the cursor and exits it as TAB, its check passed. -/
theorem Keying.tabbed (h : Keying s i v c) (hu : under v c = some u) {k : Byte} {key : Key}
    (hk : decodeKey k = some key) {x : FieldInst} {negate : Bool} {l : List (Nat × Nat)}
    (applied : (s.keyWork i c).applyDecoded key = (s.editWork i c u x).moveAsTab negate l)
    (hl : isDerived u.field = true → l = []) {y : Checked} (hy : exitCheck u.field x negate = .ok y) :
    ∃ c', Keyed s (State.deliverKey i s k) i .none c' ∧ Exited v c u.ref (y.leaves x) y.adjusted c'
      ∧ MovedAsTab s i c c' := by
  obtain ⟨c', keyed, exited, first, cursor⟩ :=
    h.exitPasses hk applied (s.editWork_edited i c u x) (h.edits hu x) hy hl
  rw [h.editWork_tabDecision hu] at first cursor
  exact ⟨c', keyed, exited, h.movedAsTab first cursor⟩

end

/-! ### The exit check, case by case (R62) -/

section
variable {d : FieldDef} {x : FieldInst} {r : Checked} {p : NumericPart} {policy : Nat} {negate : Bool} {m : Int}

theorem fillCheck_pass (h : d.mandatoryFill = false ∨ x.modified = false ∨ (0x20 : Byte) ∉ r.text) :
    fillCheck d x r = .ok r := by
  unfold fillCheck
  have hole : (0x20 : Byte) ∉ r.text → r.text.contains space = false := fun h => by simpa [space] using h
  rcases h with h | h | h
  · simp [h]
  · simp [h]
  · rw [hole h, Bool.and_false]
    rfl

theorem fillCheck_fail (hf : d.mandatoryFill = true) (hm : x.modified = true) (ht : (0x20 : Byte) ∈ r.text) :
    fillCheck d x r = .error .mandatory := by
  have hole : r.text.contains space = true := by simpa [space] using ht
  unfold fillCheck
  rw [hf, hm, hole]
  rfl

theorem exitCheck_text (h : d.kind = .text ∨ d.kind = .alpha) :
    exitCheck d x negate = fillCheck d x { text := x.text, value := x.value, adjusted := false } := by
  unfold exitCheck
  rcases h with h | h <;> rw [h]

theorem numForm_numeric (h : d.kind = .numeric p policy) :
    numForm d = { width := d.width, signed := p.signed, scale := p.scale } := by
  simp only [numForm, h, numericPart]

theorem exitCheck_illFormed (h : d.kind = .numeric p policy) (ht : parseEntry (numForm d) x.text = none) :
    exitCheck d x negate = .error .numeric := by
  unfold exitCheck
  simp only [h, ht]

theorem exitCheck_absent (h : d.kind = .numeric p policy) (ht : parseEntry (numForm d) x.text = some none) :
    exitCheck d x negate
      = fillCheck d x { text := displayForm (numForm d) none, value := none, adjusted := false } := by
  unfold exitCheck
  simp only [h, ht]

theorem exitCheck_refused (h : d.kind = .numeric p policy) (ht : parseEntry (numForm d) x.text = some (some m))
    {code : ErrorCode} (hm : applyLimits p policy (if negate then -m else m) = .error code) :
    exitCheck d x negate = .error code := by
  unfold exitCheck
  simp only [h, ht, hm]

theorem exitCheck_value_taken (h : d.kind = .numeric p policy) (ht : parseEntry (numForm d) x.text = some (some m))
    {m' : Int} {adjusted : Bool} (hm : applyLimits p policy (if negate then -m else m) = .ok (m', adjusted)) :
    exitCheck d x negate
      = fillCheck d x { text := displayForm (numForm d) (some m'), value := some m', adjusted := adjusted } := by
  unfold exitCheck
  simp only [h, ht, hm]

/-! ### Limits (R62) -/

/-- R62: whether a value lies below the field's minimum. -/
def belowMin (p : NumericPart) (m : Int) : Bool := p.min.any fun lo => decide (m < lo)

/-- R62: whether a value lies above the field's maximum. -/
def aboveMax (p : NumericPart) (m : Int) : Bool := p.max.any fun hi => decide (hi < m)

theorem belowMin_iff : belowMin p m = true ↔ ∃ lo, p.min = some lo ∧ m < lo := by
  simp [belowMin, Option.any_eq_true]

theorem aboveMax_iff : aboveMax p m = true ↔ ∃ hi, p.max = some hi ∧ hi < m := by
  simp [aboveMax, Option.any_eq_true]

/-- R62: a value within its limits is taken; CLAMP takes the limit passed, and REFUSE refuses the value. -/
theorem applyLimits_eq : applyLimits p policy m = if belowMin p m || aboveMax p m then
    if policy = 0 then .ok (if belowMin p m then p.min.getD m else p.max.getD m, true) else .error .range
    else .ok (m, false) := by
  unfold applyLimits
  extract_lets below above
  have hb : below = belowMin p m := by unfold below belowMin; cases p.min <;> rfl
  have ha : above = aboveMax p m := by unfold above aboveMax; cases p.max <;> rfl
  simp only [hb, ha]
  cases belowMin p m <;> cases aboveMax p m <;> rfl

theorem applyLimits_within (hb : ¬∃ lo, p.min = some lo ∧ m < lo) (ha : ¬∃ hi, p.max = some hi ∧ hi < m) :
    applyLimits p policy m = .ok (m, false) := by
  rw [← belowMin_iff, Bool.not_eq_true] at hb
  rw [← aboveMax_iff, Bool.not_eq_true] at ha
  rw [applyLimits_eq, hb, ha]
  rfl

theorem applyLimits_refuse (hp : policy ≠ 0) (h : (∃ lo, p.min = some lo ∧ m < lo) ∨ ∃ hi, p.max = some hi ∧ hi < m) :
    applyLimits p policy m = .error .range := by
  rw [← belowMin_iff, ← aboveMax_iff, ← Bool.or_eq_true] at h
  rw [applyLimits_eq, if_pos h, if_neg hp]

theorem applyLimits_clampMin {lo : Int} (hmin : p.min = some lo) (hm : m < lo) :
    applyLimits p 0 m = .ok (lo, true) := by
  rw [applyLimits_eq, belowMin_iff.mpr ⟨lo, hmin, hm⟩, hmin]
  rfl

theorem applyLimits_clampMax {hi : Int} (hb : ¬∃ lo, p.min = some lo ∧ m < lo) (hmax : p.max = some hi) (hm : hi < m) :
    applyLimits p 0 m = .ok (hi, true) := by
  rw [← belowMin_iff, Bool.not_eq_true] at hb
  rw [applyLimits_eq, hb, aboveMax_iff.mpr ⟨hi, hmax, hm⟩, hmax]
  rfl

end

/-! ### TAB from an edited field (R60 to R64) -/

section
variable {s : State} {i : StationId} {v : TemplateVersion} {c : Context} {u : Under}

/-- R63: TAB from an edited field whose check fails. -/
theorem Keying.tabFails (h : Keying s i v c) (hu : under v c = some u) (he : c.editing = true) {code : ErrorCode}
    (hx : exitCheck u.field u.inst false = .error code) : KeyRefused s (State.deliverKey i s 0x90) i code
      { c with adjusted := false, cursor := fieldStart v c u.ref } := by
  have refused := h.exitRefused (k := 0x90) (key := .tab) rfl rfl (.refl _) (h.inEdit hu he) hx
  rw [State.keyWork_c] at refused
  exact refused

/-- R62, R63: TAB from an edited field whose check comes to a text and a value, but for MANDATORY FILL. -/
theorem Keying.tabEnds (h : Keying s i v c) (hu : under v c = some u) (he : c.editing = true) {r : Checked}
    (hx : exitCheck u.field u.inst false = fillCheck u.field u.inst r) :
    (u.field.mandatoryFill = false ∨ u.inst.modified = false ∨ (0x20 : Byte) ∉ r.text →
        ∃ c', Keyed s (State.deliverKey i s 0x90) i .none c' ∧ Exited v c u.ref (r.leaves u.inst) r.adjusted c')
      ∧ (u.field.mandatoryFill = true → u.inst.modified = true → (0x20 : Byte) ∈ r.text →
        KeyRefused s (State.deliverKey i s 0x90) i .mandatory
          { c with adjusted := false, cursor := fieldStart v c u.ref }) := by
  have start := h.inEdit hu he
  have applied : (s.keyWork i c).applyDecoded .tab = (s.keyWork i c).moveAsTab false [] := rfl
  refine ⟨fun pass => ?_, fun hf hm ht => ?_⟩
  · obtain ⟨c', keyed, exited, -, -⟩ := h.exitPasses (k := 0x90) rfl applied (.refl _) start
      (hx.trans (fillCheck_pass pass)) fun _ => rfl
    exact ⟨c', keyed, exited⟩
  · have refused := h.exitRefused (k := 0x90) rfl applied (.refl _) start (hx.trans (fillCheck_fail hf hm ht))
    rw [State.keyWork_c] at refused
    exact refused

/-- Settles O43: the exit check of each kind, and TAB behind it. -/
theorem fieldExitChecksField : Obligations.FieldExitChecksField := by
  intro s i v c u h hu he
  refine ⟨fun hk => h.tabEnds hu he (exitCheck_text hk), fun p policy hk => ?_⟩
  rw [← numForm_numeric hk]
  refine ⟨fun ht => h.tabFails hu he (exitCheck_illFormed hk ht), fun ht => h.tabEnds hu he (exitCheck_absent hk ht),
    fun m ht => ⟨fun hb ha => ?_, fun hp hout => ?_, fun lo hp hmin hm => ?_, fun hi hp hb hmax hm => ?_⟩⟩
  · exact h.tabEnds hu he (exitCheck_value_taken hk ht (applyLimits_within hb ha))
  · exact h.tabFails hu he (exitCheck_refused hk ht (applyLimits_refuse hp hout))
  · subst hp
    exact h.tabEnds hu he (exitCheck_value_taken hk ht (applyLimits_clampMin hmin hm))
  · subst hp
    exact h.tabEnds hu he (exitCheck_value_taken hk ht (applyLimits_clampMax hb hmax hm))

end

end Sys2Proof.Machine

/-! PROOFS. A data key (R52 to R55): its three checks, the character written, and the cursor behind it. -/

namespace Sys2Proof.Machine

/-! ### The checks of a data key (R52) -/

section
variable {w : Work} {u : Under} {k : Byte}

theorem Work.dataKey_protected (h : ∀ u, w.under = some u → u.field.prot = true) (k : Byte) :
    w.dataKey k = w.operatorError .isProtected := by
  unfold Work.dataKey
  split
  · rfl
  · rename_i u hu
    rw [if_pos (h u hu)]

theorem Work.dataKey_class (hu : w.under = some u) (hp : u.field.prot = false)
    (hk : acceptsKey u.field.kind k = false) : w.dataKey k = w.operatorError (classError u.field) := by
  simp [Work.dataKey, hu, hp, hk]

theorem Work.dataKey_full (hu : w.under = some u) (hp : u.field.prot = false) (hk : acceptsKey u.field.kind k = true)
    (hf : w.c.insertMode = true ∧ u.inst.text.getLast? ≠ some 0x20) : w.dataKey k = w.operatorError .full := by
  have room : (w.c.insertMode && u.inst.text.getLast? != some space) = true := by simpa [space] using hf
  simp [Work.dataKey, hu, hp, hk, room]

theorem Work.dataKey_written (hu : w.under = some u) (hp : u.field.prot = false)
    (hk : acceptsKey u.field.kind k = true)
    (hf : ¬(w.c.insertMode = true ∧ u.inst.text.getLast? ≠ some 0x20)) : w.dataKey k
      = (w.editText u (typedText w.c.insertMode u.inst.text (u.offset w.c) k)).advance u.field := by
  have room : ¬(w.c.insertMode && u.inst.text.getLast? != some space) = true := by simpa [space] using hf
  simp only [Work.dataKey, hu, hp, hk, room, Bool.not_true, Bool.false_eq_true, if_false]

end

/-! ### The advance (R55) -/

theorem Work.advance_inside {w : Work} {d : FieldDef} (h : w.c.cursor.col + 1 < d.col + d.width) :
    w.advance d = w.moveCursor ⟨w.c.cursor.row, w.c.cursor.col + 1⟩ := if_pos h

theorem Work.advance_last {w : Work} {d : FieldDef} (h : w.c.cursor.col + 1 = d.col + d.width) :
    w.advance d = w.exitThenMove true false [] (if d.autoSkip then w.tabDecision.1 else w.c.first)
      (if d.autoSkip then w.tabDecision.2 else w.c.cursor.succ) := by
  unfold Work.advance
  rw [if_neg (by omega)]
  cases d.autoSkip <;> rfl

/-! ### A data key at the station -/

section
variable {s : State} {i : StationId} {v : TemplateVersion} {c : Context} {u : Under} {k : Byte}

/-- R53, R54: an instance of the field under the cursor with the character written. -/
def typedInst (c : Context) (d : FieldDef) (k : Byte) (x : FieldInst) : FieldInst :=
  { x with text := typedText c.insertMode x.text (c.cursor.col - d.col) k, modified := true }

theorem decodeKey_data (hlo : 0x20 ≤ k.toNat) (hhi : k.toNat ≤ 0x7E) : decodeKey k = some (.data k) := by
  have : isComposerChar k = true := by simp [isComposerChar, hlo, hhi]
  simp [decodeKey, this]

theorem Keying.dataKey_written (h : Keying s i v c) (hu : under v c = some u) (hp : u.field.prot = false)
    (hk : acceptsKey u.field.kind k = true) (hf : ¬(c.insertMode = true ∧ u.inst.text.getLast? ≠ some 0x20)) :
    (s.keyWork i c).applyDecoded (.data k) = (s.editWork i c u (typedInst c u.field k u.inst)).advance u.field := by
  have written := Work.dataKey_written (w := s.keyWork i c) (h.keyWork_under.trans hu) hp hk
    (by rw [State.keyWork_c]; exact hf)
  rw [State.keyWork_c] at written
  exact written

/-- R55: a character written before the field's last position. -/
theorem Keying.dataKey_inside (h : Keying s i v c) (hu : under v c = some u) {key : Key} (hk : decodeKey k = some key)
    {x : FieldInst} (applied : (s.keyWork i c).applyDecoded key = (s.editWork i c u x).advance u.field)
    (inside : c.cursor.col + 1 < u.field.col + u.field.width) :
    Keyed s (State.deliverKey i s k) i .none { c.modInst u.ref (fun _ => x) with
        adjusted := false, editing := true, cursor := ⟨c.cursor.row, c.cursor.col + 1⟩ }
      ∧ ((State.deliverKey i s k).station i).paint.cursorPending = true := by
  have cursor := (State.editWork_frame (s := s) (i := i) hu x).cursor
  have moves : c.cursor ≠ ⟨c.cursor.row, c.cursor.col + 1⟩ := fun e => by
    have := congrArg Pos.col e
    simp at this
  rw [Work.advance_inside (by rw [cursor]; exact inside), cursor] at applied
  have pending : ((s.editWork i c u x).moveCursor ⟨c.cursor.row, c.cursor.col + 1⟩).st.paint.cursorPending = true := by
    unfold Work.moveCursor
    rw [cursor, if_neg moves.symm]
    rfl
  obtain ⟨keyed, paint⟩ := h.keyed hk applied
    ((s.editWork_edited i c u x).trans (Work.moveCursor_edited _ _))
    ((Work.lock_eq_of_seat (Work.moveCursor_seat _ _)).trans (h.edits hu x).lock)
  rw [Work.moveCursor_c, State.editWork_c hu] at keyed
  exact ⟨keyed, by rw [paint]; exact pending⟩

/-- Settles O42: the checks in their order, the character written, and the exit behind the last position. -/
theorem dataKeyIsCheckedAndWritten : Obligations.DataKeyIsCheckedAndWritten := by
  intro s i v c k hs hl hc hv hlo hhi
  have h : Keying s i v c := ⟨hs, hl, hc, hv⟩
  have hk := decodeKey_data hlo hhi
  refine ⟨fun hp => ?_, fun u hu hp => ?_⟩
  · exact h.refused hk (Work.dataKey_protected (by rwa [h.keyWork_under]) k)
  have here : (s.keyWork i c).under = some u := h.keyWork_under.trans hu
  have class_error : acceptsKey u.field.kind k = false →
      KeyRefused s (State.deliverKey i s k) i (classError u.field) { c with adjusted := false } :=
    fun refused => h.refused hk (Work.dataKey_class here hp refused)
  refine ⟨fun kind refused => ?_, fun p policy kind refused => ?_, fun accepted full => ?_,
    fun accepted room inside => ?_, fun accepted room last => ?_⟩
  · have alpha : classError u.field = .letters := by simp only [classError, kind]
    exact alpha ▸ class_error (by rw [kind]; exact refused)
  · have numeric : classError u.field = .numeric := by simp only [classError, kind]
    refine numeric ▸ class_error ?_
    rw [kind]
    simpa [acceptsKey, isDigit, period, hyphen, space, and_assoc] using refused
  · exact h.refused hk (Work.dataKey_full here hp accepted (by rwa [State.keyWork_c]))
  · obtain ⟨keyed, pending⟩ := h.dataKey_inside hu hk (h.dataKey_written hu hp accepted room) inside
    rw [← Context.modInst_of_inst (under_some hu).2.2 (typedInst c u.field k)] at keyed
    exact ⟨keyed, pending⟩
  · have applied := h.dataKey_written hu hp accepted room
    have frame := State.editWork_frame (s := s) (i := i) hu (typedInst c u.field k u.inst)
    rw [Work.advance_last (by rw [frame.cursor]; exact last)] at applied
    have edited := s.editWork_edited i c u (typedInst c u.field k u.inst)
    have editing := h.edits hu (typedInst c u.field k u.inst)
    refine ⟨fun code hx => ?_, fun y hy => ?_⟩
    · have refused := h.exitRefused hk applied edited editing hx
      rw [State.editWork_c hu] at refused
      exact refused
    · obtain ⟨c', keyed, exited, first, cursor⟩ := h.exitPasses hk applied edited editing hy fun _ => rfl
      refine ⟨c', keyed, exited, fun skip => ?_, fun skip => ⟨?_, ?_⟩⟩
      · rw [skip, if_pos rfl, h.editWork_tabDecision hu] at first cursor
        exact h.movedAsTab first cursor
      · rw [first, skip, frame.first]; rfl
      · rw [cursor, skip, frame.cursor]; rfl

end

end Sys2Proof.Machine

/-! PROOFS. The erasing and the mode keys (R56 to R58, R68, R69): DELETE and ERASE EOF, ERASE INPUT over every instance of
the form, INSERT and RESET. -/

namespace Sys2Proof.Machine

/-! ### Keys that need an open field -/

section
variable {w : Work} {u : Under}

theorem Work.openUnder_of_open (hu : w.under = some u) (hp : u.field.prot = false) : w.openUnder = some u := by
  simp [Work.openUnder, hu, hp]

theorem Work.openUnder_none (h : ∀ u, w.under = some u → u.field.prot = true) : w.openUnder = none := by
  unfold Work.openUnder
  split
  · rename_i u hu
    rw [if_pos (h u hu)]
  · rfl

end

section
variable {s : State} {i : StationId} {v : TemplateVersion} {c : Context} {u : Under}

theorem Keying.openUnder (h : Keying s i v c) (hu : under v c = some u) (hp : u.field.prot = false) :
    (s.keyWork i c).openUnder = some u :=
  Work.openUnder_of_open (h.keyWork_under.trans hu) hp

theorem Keying.openUnder_none (h : Keying s i v c) (hp : ∀ u, under v c = some u → u.field.prot = true) :
    (s.keyWork i c).openUnder = none :=
  Work.openUnder_none (by rwa [h.keyWork_under])

/-- R56, R57: a key that ends in an edit of the instance under the cursor. -/
theorem Keying.editKeyed (h : Keying s i v c) (hu : under v c = some u) {k : Byte} {key : Key}
    (hk : decodeKey k = some key) (f : FieldInst → FieldInst)
    (applied : (s.keyWork i c).applyDecoded key = s.editWork i c u (f u.inst)) :
    Keyed s (State.deliverKey i s k) i .none
      { ({ c with adjusted := false } : Context).modInst u.ref f with editing := true } := by
  have keyed := (h.keyed hk applied (s.editWork_edited i c u _) (h.edits hu _).lock).1
  rw [State.editWork_c hu, ← Context.modInst_of_inst (under_some hu).2.2 f] at keyed
  rw [Context.modInst_flags c u.ref f c.editing false]
  exact keyed

/-- R57: the instance under the cursor, blank from the cursor on. -/
def blankedInst (c : Context) (u : Under) : FieldInst :=
  { u.inst with text := blankFrom u.inst.text (c.cursor.col - u.field.col), modified := true }

theorem Keying.eraseEof_blanks (h : Keying s i v c) (hu : under v c = some u) (hp : u.field.prot = false) :
    (s.keyWork i c).applyDecoded .eraseEof = s.editWork i c u (blankedInst c u) := by
  simp only [Work.applyDecoded, Work.eraseEofKey, h.openUnder hu hp, State.keyWork_c]
  rfl

end

/-! ### ERASE INPUT (R58) -/

/-- R58: an instance of the form as ERASE INPUT leaves it. -/
def erasedByInput (v : TemplateVersion) (r : InstRef) (x : FieldInst) : FieldInst :=
  match v.defOf r with
  | some d => if d.prot then x else erasedInst d x
  | none => x

/-- R58: the steps of ERASE INPUT keep the version and the rows' tags and origins, and touch nothing but instances. -/
structure InputErased (w w' : Work) : Prop where
  edited : w.Edited w'
  lock : w'.st.lock = w.st.lock
  others : w'.c = { w.c with fixed := w'.c.fixed, rows := w'.c.rows }
  shapes : w'.c.rows.map RowRec.shape = w.c.rows.map RowRec.shape

theorem InputErased.refl (w : Work) : InputErased w w := ⟨.refl w, rfl, rfl, rfl⟩

theorem InputErased.trans {a b c : Work} (h : InputErased a b) (k : InputErased b c) : InputErased a c :=
  ⟨h.edited.trans k.edited, k.lock.trans h.lock, by rw [k.others, h.others], k.shapes.trans h.shapes⟩

theorem InputErased.version {w w' : Work} (h : InputErased w w') : w'.v = w.v := by
  rw [h.edited]

theorem InputErased.frame {w w' : Work} (h : InputErased w w') : SameFrame w.c w'.c :=
  ⟨by simpa using congrArg List.length h.shapes, by rw [h.others], by rw [h.others]⟩

theorem InputErased.putInst (w : Work) (r : InstRef) (x : FieldInst) : InputErased w (w.putInst r x) := by
  refine ⟨w.putInst_edited r x, Work.lock_eq_of_seat (w.putInst_seat r x), ?_, ?_⟩
  · rw [Work.putInst_c]
    split
    · exact Context.modInst_others _ _ _
    · rfl
  · rw [Work.putInst_c]
    split
    · exact Context.modInst_shapes _ _ _
    · rfl

section
variable (p : Work × List (Nat × Nat)) (r : InstRef)

theorem Work.eraseInst_erased : InputErased p.1 (Work.eraseInst p r).1 := by
  unfold Work.eraseInst
  split
  · split
    · exact .refl _
    · exact .putInst _ _ _
  · exact .refl _

/-- R58: a step erases the instance it is for. -/
theorem Work.eraseInst_inst (q : InstRef) : (Work.eraseInst p r).1.c.inst? q
    = if q = r then (p.1.c.inst? r).map (erasedByInput p.1.v r) else p.1.c.inst? q := by
  have unchanged : (∀ x, p.1.c.inst? r = some x → erasedByInput p.1.v r x = x) → p.1.c.inst? q
      = if q = r then (p.1.c.inst? r).map (erasedByInput p.1.v r) else p.1.c.inst? q := fun same => by
    split
    · rename_i e
      subst e
      cases hx : p.1.c.inst? q with
      | none => rfl
      | some x => rw [Option.map_some, same x hx]
    · rfl
  unfold Work.eraseInst
  split
  · rename_i d x hd hx
    split
    · rename_i hp
      exact unchanged fun y _ => by simp only [erasedByInput, hd, hp, if_true]
    · rename_i hp
      rw [Work.putInst_c, hx, Option.isSome_some, if_pos rfl, Context.inst?_modInst, hx]
      simp only [erasedByInput, hd, hp, Option.map_some, Bool.false_eq_true, if_false]
  · rename_i absent
    refine unchanged fun x hx => ?_
    cases hd : p.1.v.defOf r with
    | none => simp only [erasedByInput, hd]
    | some d => exact (absent d x hd hx).elim

end

theorem Work.eraseAll_erased (l : List InstRef) (p : Work × List (Nat × Nat)) :
    InputErased p.1 (l.foldl Work.eraseInst p).1 :=
  foldl_keeps (P := fun q : Work × List (Nat × Nat) => InputErased p.1 q.1)
    (fun q r h => h.trans (Work.eraseInst_erased q r)) l (.refl _)

/-- R58: each instance named once is erased once. -/
theorem Work.eraseAll_inst {l : List InstRef} (once : l.Nodup) (p : Work × List (Nat × Nat)) {r : InstRef}
    (hr : r ∈ l) : (l.foldl Work.eraseInst p).1.c.inst? r = (p.1.c.inst? r).map (erasedByInput p.1.v r) := by
  have kept : ∀ (m : List InstRef) (q : Work × List (Nat × Nat)), r ∉ m →
      (m.foldl Work.eraseInst q).1.c.inst? r = q.1.c.inst? r := by
    intro m
    induction m with
    | nil => exact fun _ _ => rfl
    | cons a m ih =>
      intro q hm
      rw [List.mem_cons, not_or] at hm
      rw [List.foldl_cons, ih _ hm.2, Work.eraseInst_inst, if_neg hm.1]
  induction l generalizing p with
  | nil => cases hr
  | cons a l ih =>
    obtain ⟨fresh, once⟩ := List.nodup_cons.mp once
    rw [List.foldl_cons]
    rcases List.mem_cons.mp hr with rfl | hr
    · rw [kept l _ fresh, Work.eraseInst_inst, if_pos rfl]
    · have other : r ≠ a := fun e => fresh (e ▸ hr)
      rw [ih once _ hr, Work.eraseInst_inst, if_neg other, (Work.eraseInst_erased p a).version]

theorem allRefs_nodup (v : TemplateVersion) (c : Context) : (allRefs v c).Nodup := by
  have row : ∀ k, ((List.range v.rowDefs.length).map (InstRef.row (k + 1))).Nodup := fun k =>
    List.nodup_range.map fun a b e => by cases e; rfl
  refine List.nodup_append.mpr ⟨List.nodup_range.map fun a b e => by cases e; rfl,
    List.nodup_flatMap.mpr ⟨fun k _ => row k, ?_⟩, ?_⟩
  · refine List.nodup_range.pairwise_of_forall_ne fun a _ b _ hne r ha hb => ?_
    obtain ⟨_, _, rfl⟩ := List.mem_map.mp ha
    obtain ⟨_, _, e⟩ := List.mem_map.mp hb
    cases e
    exact hne rfl
  · intro a ha b hb e
    obtain ⟨_, _, rfl⟩ := List.mem_map.mp ha
    obtain ⟨_, _, hb⟩ := List.mem_flatMap.mp hb
    obtain ⟨_, _, rfl⟩ := List.mem_map.mp hb
    cases e

section
variable {s : State} {i : StationId} {v : TemplateVersion} {c : Context}

/-- R58: ERASE INPUT at the station. -/
theorem Keying.eraseInput (h : Keying s i v c) : ∃ c', Keyed s (State.deliverKey i s 0xA2) i .none c'
    ∧ c' = { c with fixed := c'.fixed, rows := c'.rows, editing := false, adjusted := false, cursor := homePos v c }
    ∧ c'.rows.map RowRec.shape = c.rows.map RowRec.shape
    ∧ ∀ r ∈ allRefs v c, ∀ d, v.defOf r = some d → isDerived d = false →
        c'.inst? r = (c.inst? r).map (erasedByInput v r) := by
  let w := s.keyWork i c
  obtain ⟨e, he⟩ : ∃ e, (allRefs w.v w.c).foldl Work.eraseInst (w, []) = e := ⟨_, rfl⟩
  have version : w.v = v := h.keyWork_v
  have form : w.c = { c with adjusted := false } := State.keyWork_c
  have erased : InputErased w e.1 := he ▸ Work.eraseAll_erased _ (w, [])
  have home : homePos e.1.v e.1.c = homePos v c := by
    rw [erased.version, version, homePos_frame erased.frame, form]
    rfl
  let moved := (e.1.setEditing false).moveCursor (homePos v c)
  have movedForm : moved.c = { e.1.c with editing := false, cursor := homePos v c } := Work.moveCursor_c _ _
  have applied : w.applyDecoded .eraseInput = moved.tally e.2 := by
    simp only [moved, ← home, ← he]
    rfl
  have edited : w.Edited (moved.tally e.2) :=
    (erased.edited.trans (Work.moveCursor_edited (e.1.setEditing false) _)).trans (Work.tally_edited _ _)
  have lock : (moved.tally e.2).st.lock = .none := by
    rw [Work.tally_lock, Work.lock_eq_of_seat (Work.moveCursor_seat _ _)]
    exact erased.lock.trans h.keyWork_lock
  have tallied : Tallied v moved.c (moved.tally e.2).c := by
    have movedVersion : moved.v = v := (Work.moveCursor_v _ _).trans (erased.version.trans version)
    exact movedVersion ▸ Tallied.tally moved e.2
  refine ⟨_, (h.keyed rfl applied edited lock).1, ?_, ?_, fun r hr d hd entered => ?_⟩
  · rw [tallied.others, movedForm, erased.others, form]
  · rw [tallied.shapes, movedForm, erased.shapes, form]
  · have member : r ∈ allRefs w.v w.c := by rw [version, form]; exact hr
    have inst : e.1.c.inst? r = (w.c.inst? r).map (erasedByInput w.v r) :=
      he ▸ Work.eraseAll_inst (allRefs_nodup _ _) (w, []) member
    rw [version, form] at inst
    rw [tallied.entered r d hd entered, movedForm]
    exact inst

/-- Settles O44: each key by the one edit, refusal or change of mode it makes. -/
theorem erasingKeysEdit : Obligations.ErasingKeysEdit := by
  intro s i v c h
  have mode : ∀ {k key} b, decodeKey k = some key →
      (s.keyWork i c).applyDecoded key = (s.keyWork i c).setInsertMode b →
      Keyed s (State.deliverKey i s k) i .none { c with adjusted := false, insertMode := b } := by
    intro k key b hk applied
    have keyed := (h.keyed hk applied (Work.setInsertMode_edited _ b)
      ((Work.lock_eq_of_seat (Work.setInsertMode_seat _ b)).trans h.keyWork_lock)).1
    rw [Work.setInsertMode_c, State.keyWork_c] at keyed
    exact keyed
  refine ⟨⟨mode (key := .insert) _ rfl (by simp only [Work.applyDecoded, State.keyWork_c]),
    mode (key := .reset) _ rfl rfl⟩, fun closed => ⟨?_, ?_⟩, fun u hu hp => ⟨?_, ?_⟩, ?_⟩
  · exact h.refused (key := .delete) rfl (by simp only [Work.applyDecoded, Work.deleteKey, h.openUnder_none closed])
  · exact h.refused (key := .eraseEof) rfl (by simp only [Work.applyDecoded, Work.eraseEofKey, h.openUnder_none closed])
  · refine h.editKeyed (key := .delete) hu rfl (fun x => { x with
      text := u.inst.text.take (c.cursor.col - u.field.col) ++ u.inst.text.drop (c.cursor.col - u.field.col + 1)
        ++ [0x20]
      modified := true }) ?_
    simp only [Work.applyDecoded, Work.deleteKey, h.openUnder hu hp, State.keyWork_c]
    rfl
  · exact h.editKeyed (key := .eraseEof) hu rfl (fun x => { x with
      text := blankFrom u.inst.text (c.cursor.col - u.field.col), modified := true }) (h.eraseEof_blanks hu hp)
  · obtain ⟨c', keyed, form, shapes, insts⟩ := h.eraseInput
    refine ⟨c', keyed, form, ?_, fun r d x hr hd hx entered => ⟨fun hp => ?_, fun hp => ?_⟩⟩
    · have tags := congrArg (List.map fun t : Option Nat × Bool × Nat => (t.1, t.2.1)) shapes
      rwa [List.map_map, List.map_map] at tags
    · rw [insts r hr d hd entered, hx, Option.map_some]
      simp only [erasedByInput, hd, hp, if_true]
    · rw [insts r hr d hd entered, hx, Option.map_some]
      simp [erasedByInput, hd, hp, erasedInst, spaces, space, bne, Bool.beq_eq_decide_eq]

end

end Sys2Proof.Machine

/-! PROOFS. The keys that exit the field (R65 to R67, R85): FIELD EXIT as two keystrokes in one, FIELD MINUS with its value
negated, and DUP. -/

namespace Sys2Proof.Machine

/-! ### The stale form of an act

An act works on `Work.c`; nothing it does reads or writes the form its station record held before. -/

/-- The act with another stale form. -/
def Work.withStale (w : Work) (o : Option Context) : Work := { w with st := { w.st with ctx := o } }

section
variable (w : Work) (o : Option Context)

@[simp] theorem Work.withStale_c : (w.withStale o).c = w.c := rfl
@[simp] theorem Work.withStale_v : (w.withStale o).v = w.v := rfl

theorem Work.noteIndicator_stale (new : Work) :
    (w.withStale o).noteIndicator (new.withStale o) = (w.noteIndicator new).withStale o := by
  have same : (w.withStale o).noteIndicator (new.withStale o) = if new.indicator = w.indicator then new.withStale o
    else (new.withStale o).dirty .message := rfl
  rw [same]
  unfold Work.noteIndicator
  split <;> rfl

theorem Work.setAdjusted_stale (b : Bool) : (w.withStale o).setAdjusted b = (w.setAdjusted b).withStale o :=
  Work.noteIndicator_stale w o { w with c := { w.c with adjusted := b } }

theorem Work.operatorError_stale (code : ErrorCode) :
    (w.withStale o).operatorError code = (w.operatorError code).withStale o :=
  congrArg Work.alarm (Work.noteIndicator_stale w o { w with st := { w.st with lock := .operatorError code } })

theorem Work.moveCursor_stale (q : Pos) : (w.withStale o).moveCursor q = (w.moveCursor q).withStale o := by
  have same : (w.withStale o).moveCursor q = if q = w.c.cursor then w.withStale o
    else Work.markCursor { w.withStale o with c := { w.c with cursor := q } } := rfl
  rw [same]
  unfold Work.moveCursor
  split <;> rfl

theorem Work.setFirst_stale (f : Nat) : (w.withStale o).setFirst f = (w.setFirst f).withStale o := by
  have same : (w.withStale o).setFirst f = if f = w.c.first then w.withStale o
    else Work.dirty { w.withStale o with c := { w.c with first := f } } .band := rfl
  rw [same]
  unfold Work.setFirst
  split <;> rfl

theorem Work.dirtyInst_stale (r : InstRef) : (w.withStale o).dirtyInst r = (w.dirtyInst r).withStale o := by
  cases r with
  | fixed j => rfl
  | row p j =>
    have same : (w.withStale o).dirtyInst (.row p j) = if w.c.inWindow w.v.group p then
      (w.withStale o).dirty (.slot (p + 1 - w.c.first) j) else w.withStale o := rfl
    rw [same]
    unfold Work.dirtyInst
    dsimp only
    split <;> rfl

theorem Work.putInst_stale (r : InstRef) (x : FieldInst) :
    (w.withStale o).putInst r x = (w.putInst r x).withStale o := by
  unfold Work.putInst
  rw [Work.withStale_c, Work.withStale_v]
  cases w.c.inst? r with
  | none => rfl
  | some y =>
    dsimp only
    split
    · rfl
    · exact Work.dirtyInst_stale { w with c := w.c.modInst r fun _ => x } o r

theorem Work.compute_stale (r : InstRef) : (w.withStale o).compute r = (w.compute r).withStale o := by
  unfold Work.compute
  rw [Work.withStale_c, Work.withStale_v]
  split
  · exact w.putInst_stale o _ _
  · rfl

theorem Work.computeSumsOf_stale (ids : List Nat) :
    (w.withStale o).computeSumsOf ids = (w.computeSumsOf ids).withStale o :=
  List.foldl_hom (Work.withStale · o) fun u j => (u.compute_stale o (.fixed j))

theorem Work.computeProductsOf_stale (l : List (Nat × Nat)) : (w.withStale o).computeProductsOf l
    = ((w.computeProductsOf l).1.withStale o, (w.computeProductsOf l).2) := by
  refine List.foldl_hom (fun p : Work × List Nat => (p.1.withStale o, p.2)) (g₁ := Work.computeProduct)
    (g₂ := Work.computeProduct) (init := (w, _)) fun p r => ?_
  simp only [Work.computeProduct, Work.compute_stale, Work.withStale_c, Work.withStale_v]

theorem Work.tally_stale (l : List (Nat × Nat)) : (w.withStale o).tally l = (w.tally l).withStale o := by
  unfold Work.tally
  rw [Work.computeProductsOf_stale]
  exact Work.computeSumsOf_stale _ _ _

/-- The outcome of an exit with another stale form. -/
def ExitOutcome.withStale (e : ExitOutcome) (o : Option Context) : ExitOutcome :=
  match e with
  | .passed w changed => .passed (w.withStale o) changed
  | .failed w => .failed (w.withStale o)

theorem Work.exitField_stale (negate : Bool) :
    (w.withStale o).exitField negate = (w.exitField negate).withStale o := by
  have under : (w.withStale o).under = w.under := rfl
  unfold Work.exitField
  rw [under, Work.withStale_c, Work.withStale_v]
  split
  · rfl
  split
  · rfl
  split
  · rw [Work.moveCursor_stale, Work.operatorError_stale]
    rfl
  · dsimp only
    rw [Work.putInst_stale]
    split
    · exact congrArg (ExitOutcome.passed · _) (Work.setAdjusted_stale (Work.setEditing _ false) o true)
    · rfl

theorem Work.exitThenMove_stale (b negate : Bool) (l : List (Nat × Nat)) (f : Nat) (q : Pos) :
    (w.withStale o).exitThenMove b negate l f q = (w.exitThenMove b negate l f q).withStale o := by
  have exit : (if b then (w.withStale o).exitField negate else .passed (w.withStale o) [])
      = (if b then w.exitField negate else .passed w []).withStale o := by
    cases b
    · rfl
    · exact w.exitField_stale o negate
  unfold Work.exitThenMove
  rw [exit]
  cases (if b then w.exitField negate else .passed w []) with
  | failed w' => exact w'.tally_stale o l
  | passed w' changed =>
    simp only [ExitOutcome.withStale, Work.tally_stale, Work.setFirst_stale, Work.moveCursor_stale]

theorem Work.moveAsTab_stale (negate : Bool) (l : List (Nat × Nat)) :
    (w.withStale o).moveAsTab negate l = (w.moveAsTab negate l).withStale o :=
  Work.exitThenMove_stale w o true negate l w.tabDecision.1 w.tabDecision.2

end

/-! ### FIELD EXIT (R65) -/

theorem Work.setAdjusted_same {w : Work} {b : Bool} (h : w.c.adjusted = b) : w.setAdjusted b = w := by
  subst h
  exact if_pos rfl

theorem State.setStation_setStation (s : State) (i : StationId) (a b : Station) :
    (s.setStation i a).setStation i b = s.setStation i b := by
  simp [State.setStation]

section
variable {s : State} {i : StationId} {v : TemplateVersion} {c : Context} {u : Under}

/-- R49: the act of the next key goes on from the act before it, where that left no adjusted notice. -/
theorem State.keyWork_behind {w : Work} (edited : (s.openWork i c).Edited w) (entry : w.c.entry = c.entry)
    (clear : w.c.adjusted = false) :
    (s.setStation i { s.station i with lock := w.st.lock, ctx := some w.c, paint := w.st.paint }).keyWork i w.c
      = w.withStale (some w.c) := by
  have stale : w.withStale (some w.c) = { s.openWork i c with
      c := w.c, st := { s.station i with lock := w.st.lock, paint := w.st.paint, ctx := some w.c } } :=
    congrArg (Work.withStale · (some w.c)) edited
  rw [State.keyWork, Work.setAdjusted_same (by exact clear), stale]
  unfold State.openWork
  rw [State.station_setStation_self, entry]
  rfl

/-- A quiet act with another stale form, at the station as the key before left it. -/
theorem State.closeWork_behind {w : Work} (edited : (s.openWork i c).Edited w) (st : Station) (o : Option Context) :
    (s.setStation i st).closeWork i (w.withStale o) = s.closeWork i w := by
  have freeRows : w.freeRows = s.freeRows := congrArg Work.freeRows edited
  have poolLow : w.poolLow = false := congrArg Work.poolLow edited
  have latched : w.latched = none := congrArg Work.latched edited
  rw [State.closeWork_quiet freeRows poolLow latched,
    State.closeWork_quiet (s := s.setStation i st) (w := w.withStale o) freeRows poolLow latched,
    State.setStation_setStation]
  rfl

/-- R65: an edit that exits as TAB is the edit by one key and a TAB behind it. -/
theorem Keying.exit_eq_edit_then_tab (h : Keying s i v c) (hu : under v c = some u) {k k' : Byte} {key key' : Key}
    (hk : decodeKey k = some key) (hk' : decodeKey k' = some key') {x : FieldInst}
    (edits : (s.keyWork i c).applyDecoded key = s.editWork i c u x)
    (exits : (s.keyWork i c).applyDecoded key' = (s.editWork i c u x).moveAsTab false []) :
    State.deliverKey i s k' = State.deliverKey i (State.deliverKey i s k) 0x90 := by
  have first := h.deliverKey_edited hk edits (s.editWork_edited i c u x)
  have second := h.deliverKey hk'
  have editing := h.edits hu x
  have entry : (s.editWork i c u x).c.entry = c.entry := by
    rw [State.editWork_c hu]
    exact Context.modInst_entry _ _ _
  have edited : (s.openWork i c).Edited (s.editWork i c u x) :=
    ((s.openWork i c).setAdjusted_edited false).trans (s.editWork_edited i c u x)
  rw [exits] at second
  generalize s.editWork i c u x = w at *
  have keying : Keying (s.setStation i { s.station i with lock := w.st.lock, ctx := some w.c, paint := w.st.paint }) i v
      w.c := by
    obtain ⟨hs, -, -, hv⟩ := h
    unfold Keying
    rw [State.station_setStation_self, entry]
    exact ⟨hs, editing.lock, rfl, hv⟩
  have tab := keying.deliverKey (k := 0x90) (key := .tab) rfl
  rw [State.keyWork_behind edited entry editing.adjusted] at tab
  rw [first, second, tab]
  exact (State.closeWork_behind (edited.trans (w.exitThenMove_edited _ _ _ _ _)) _ _).symm.trans
    (congrArg _ (w.moveAsTab_stale _ _ _).symm)

/-! ### FIELD MINUS (R66) -/

theorem Work.fieldMinusKey_elsewhere {w : Work}
    (h : ∀ u, w.openUnder = some u → (isNumeric u.field && (numForm u.field).signed) = false) :
    w.fieldMinusKey = w.operatorError .numeric := by
  unfold Work.fieldMinusKey
  split
  · rfl
  · rename_i u hu
    rw [h u hu]
    rfl

theorem isNumeric_iff {d : FieldDef} : isNumeric d = true ↔ ∃ p policy, d.kind = .numeric p policy := by
  unfold isNumeric
  cases d.kind <;> simp

/-- R66: in a signed field the exit check of FIELD MINUS is the exit check of the entry negated. -/
theorem exitCheck_negated {d : FieldDef} {p : NumericPart} {policy : Nat} (hk : d.kind = .numeric p policy)
    (hs : p.signed = true) (hf : (numForm d).Roomy) {x : FieldInst} {m : Int}
    (ht : parseEntry (numForm d) x.text = some (some m)) :
    exitCheck d x true = exitCheck d { x with text := displayForm (numForm d) (some (-m)) } false := by
  have signed : (numForm d).signed = true := by rw [numForm_numeric hk]; exact hs
  have fits : valueFits (numForm d) (some (-m)) = true := by
    have := parseEntry_fits hf ht
    rw [valueFits_some] at *
    exact ⟨by simpa using this.1, fun h => by simp [signed] at h⟩
  have back := parseEntry_displayForm hf fits
  unfold exitCheck
  simp only [hk, ht, back, if_true, Bool.false_eq_true, if_false]
  rfl

/-- R66: an absent or ill-formed entry is not negated. -/
theorem exitCheck_not_negated {d : FieldDef} {x : FieldInst}
    (ht : ∀ m, parseEntry (numForm d) x.text ≠ some (some m)) : exitCheck d x true = exitCheck d x false := by
  unfold exitCheck
  split
  · split
    · rfl
    · rfl
    · rename_i m hm
      exact (ht m hm).elim
  · rfl

/-! ### The three keys at the station -/

/-- R67: DUP that copies nothing sounds the alarm. -/
theorem Keying.alarmed (h : Keying s i v c) (applied : (s.keyWork i c).dupKey = (s.keyWork i c).alarm) :
    Keyed s (State.deliverKey i s 0xA5) i .none { c with adjusted := false }
      ∧ ((State.deliverKey i s 0xA5).station i).paint.alarm = true := by
  obtain ⟨keyed, paint⟩ := h.keyed (k := 0xA5) (key := .dup) rfl applied (Work.alarm_edited _) h.keyWork_lock
  rw [Work.alarm_c, State.keyWork_c] at keyed
  exact ⟨keyed, by rw [paint]; rfl⟩

theorem Keying.dup_elsewhere (h : Keying s i v c) (hu : under v c = some u) (hp : u.field.prot = false)
    (hsrc : dupSource c u.ref = none) : (s.keyWork i c).dupKey = (s.keyWork i c).alarm := by
  have source : dupSource (s.keyWork i c).c u.ref = none := by rw [State.keyWork_c]; exact hsrc
  simp only [Work.dupKey, h.openUnder hu hp, source]

/-- R67: DUP copies from the row above. -/
theorem dupSource_row {p j : Nat} {source : FieldInst} (h : c.inst? (.row p j) = some source) :
    dupSource c (.row (p + 1) j) = some source := by
  cases p with
  | zero => cases h
  | succ p =>
    have behind : 1 < p + 1 + 1 := by omega
    unfold dupSource
    dsimp only
    rw [if_pos behind]
    exact h

/-- R67: the instance under the cursor as DUP copies it. -/
def dupInst (u : Under) (source : FieldInst) : FieldInst :=
  { u.inst with
    text := source.text, value := if isNumeric u.field then source.value else u.inst.value, modified := true }

/-- R67: what DUP calls for computations of. -/
def dupChanges (u : Under) (source : FieldInst) : List (Nat × Nat) :=
  if (dupInst u source).value = u.inst.value then [] else changedRow u.ref

theorem Keying.dup_copies (h : Keying s i v c) (hu : under v c = some u) (hp : u.field.prot = false)
    {source : FieldInst} (hsrc : dupSource c u.ref = some source) : (s.keyWork i c).dupKey
      = (s.editWork i c u (dupInst u source)).moveAsTab false (dupChanges u source) := by
  have copied : dupSource (s.keyWork i c).c u.ref = some source := by rw [State.keyWork_c]; exact hsrc
  simp only [Work.dupKey, h.openUnder hu hp, copied]
  rfl

/-- R67, R95: DUP changes no value of a derived field. -/
theorem dupChanges_of_isDerived (hd : isDerived u.field = true) (source : FieldInst) : dupChanges u source = [] := by
  simp [dupChanges, dupInst, isNumeric_of_isDerived hd]

theorem Keying.fieldExit_blanks (h : Keying s i v c) (hu : under v c = some u) (hp : u.field.prot = false) :
    (s.keyWork i c).applyDecoded .fieldExit = (s.editWork i c u (blankedInst c u)).moveAsTab false [] := by
  simp only [Work.applyDecoded, Work.fieldExitKey, h.openUnder hu hp, State.keyWork_c]
  rfl

theorem Keying.fieldMinus_blanks (h : Keying s i v c) (hu : under v c = some u) (hp : u.field.prot = false)
    (numeric : isNumeric u.field = true) (signed : (numForm u.field).signed = true) :
    (s.keyWork i c).applyDecoded .fieldMinus = (s.editWork i c u (blankedInst c u)).moveAsTab true [] := by
  simp only [Work.applyDecoded, Work.fieldMinusKey, h.openUnder hu hp, numeric, signed, Bool.and_self, if_true,
    State.keyWork_c]
  rfl

/-- R67: DUP whose exit check fails: the copy stays, and so does what it calls for. -/
theorem Keying.dupFails (h : Keying s i v c) (hu : under v c = some u) (hp : u.field.prot = false)
    {source : FieldInst} (hsrc : dupSource c u.ref = some source) {code : ErrorCode}
    (hx : exitCheck u.field (dupInst u source) false = .error code) :
    ∃ c', KeyRefused s (State.deliverKey i s 0xA5) i code c' ∧ Tallied v
      { c.modInst u.ref (fun _ => dupInst u source) with
        editing := true, adjusted := false, cursor := fieldStart v c u.ref } c' := by
  let w := s.editWork i c u (dupInst u source)
  let failed := (w.moveCursor (fieldStart v c u.ref)).operatorError code
  have refused := h.exitFails (k := 0xA5) (key := .dup) rfl (h.dup_copies hu hp hsrc)
    (s.editWork_edited i c u _) (h.edits hu _) hx
  have version : failed.v = v :=
    ((Work.operatorError_keeps _ _).version.trans (Work.moveCursor_v _ _)).trans (h.edits hu _).version
  have start : failed.c = { w.c with cursor := fieldStart v c u.ref } := by
    rw [Work.operatorError_c, Work.moveCursor_c]
  have tallied := version ▸ Tallied.tally failed (dupChanges u source)
  rw [start, State.editWork_c hu] at tallied
  exact ⟨_, refused, tallied⟩

/-- Settles O45: FIELD EXIT as two keystrokes, FIELD MINUS by its exit check, DUP by the instance it copies. -/
theorem exitingKeysMoveAsTab : Obligations.ExitingKeysMoveAsTab := by
  intro s i v c h
  refine ⟨fun closed => ⟨?_, ?_, ?_⟩, fun u hu hp => ⟨?_, fun unsigned => ?_, fun p policy kind signed => ?_,
    ⟨fun j hj => ?_, fun j hj => ?_⟩, fun p j source hr hsrc => ?_⟩⟩
  · exact h.refused (key := .fieldExit) rfl
      (by simp only [Work.applyDecoded, Work.fieldExitKey, h.openUnder_none closed])
  · exact h.refused (key := .fieldMinus) rfl (Work.fieldMinusKey_elsewhere fun u hu => by
      rw [h.openUnder_none closed] at hu; cases hu)
  · exact h.alarmed (by simp only [Work.dupKey, h.openUnder_none closed])
  · exact h.exit_eq_edit_then_tab (key := .eraseEof) (key' := .fieldExit) hu rfl rfl (h.eraseEof_blanks hu hp)
      (h.fieldExit_blanks hu hp)
  · refine h.refused (key := .fieldMinus) rfl (Work.fieldMinusKey_elsewhere fun u' hu' => ?_)
    rw [h.openUnder hu hp] at hu'
    cases hu'
    cases hn : isNumeric u.field with
    | false => rfl
    | true =>
      obtain ⟨p, policy, kind⟩ := isNumeric_iff.mp hn
      rw [numForm_numeric kind, unsigned p policy kind]
      rfl
  · have form : numForm u.field = { width := u.field.width, signed := true, scale := p.scale } := by
      rw [numForm_numeric kind, signed]
    have applied := h.fieldMinus_blanks hu hp (isNumeric_iff.mpr ⟨p, policy, kind⟩) (by rw [form])
    rw [← form]
    refine ⟨fun code hx => ?_, fun y hy => ?_, fun roomy => ⟨fun m ht => ?_, fun absent => ?_⟩⟩
    · have refused := h.exitRefused (k := 0xA4) rfl applied (s.editWork_edited i c u _) (h.edits hu _) hx
      rw [State.editWork_c hu] at refused
      rw [Context.modInst_flags c u.ref _ c.editing false]
      exact refused
    · exact h.tabbed (k := 0xA4) hu rfl applied (fun _ => rfl) hy
    · have scale : (numForm u.field).scale = p.scale := by rw [form]
      exact exitCheck_negated kind signed (by rwa [NumForm.Roomy, scale]) ht
    · exact exitCheck_not_negated absent
  · exact h.alarmed (h.dup_elsewhere hu hp (by rw [hj]; rfl))
  · exact h.alarmed (h.dup_elsewhere hu hp (by rw [hj]; rfl))
  · have copied : dupSource c u.ref = some source := hr ▸ dupSource_row hsrc
    refine ⟨fun code hx => ?_, fun y hy => ?_⟩
    · obtain ⟨c', refused, tallied⟩ := h.dupFails hu hp copied hx
      exact ⟨c', refused, tallied.others, tallied.fixedKept, tallied.rowKept⟩
    · exact h.tabbed (k := 0xA5) (key := .dup) hu rfl (h.dup_copies hu hp copied)
        (fun derived => dupChanges_of_isDerived derived source) hy

end

end Sys2Proof.Machine

/-! PROOFS. A key that exits the field and then moves (R59, R63, R77): what it leaves, with an edit under way and without
one; then where TAB, BACKTAB, HOME and NEWLINE go (R78 to R83). -/

namespace Sys2Proof.Machine

/-! ### What a move has painted (R74, R75) -/

section
variable (p : Paint) (b : Bool)

/-- R149: an entry appended stands in the list, or a full repaint does its work. -/
theorem Paint.append_due (d : Dirty) : (p.append b d).resume ≠ none ∨ d ∈ (p.append b d).dirty := by
  unfold Paint.append
  split
  · exact .inr (by simp)
  · exact .inl (by simp [Paint.setFull])

theorem Paint.insert_band_due : (p.insert b .band).resume ≠ none ∨ .band ∈ (p.insert b .band).dirty := by
  unfold Paint.insert
  dsimp only
  split
  · rename_i listed
    exact .inr (List.mem_filter.mpr ⟨List.contains_iff_mem.mp listed, rfl⟩)
  · exact Paint.append_due _ _ _

/-- R147, R150: a band to be painted again is painted by its entry or by a full repaint. -/
theorem Paint.add_band_due : (p.add b .band).resume ≠ none ∨ .band ∈ (p.add b .band).dirty := by
  unfold Paint.add
  split
  · rename_i r hr
    split
    · exact p.insert_band_due b
    · exact .inl (by simp [hr])
  · exact p.insert_band_due b

end

section
variable (w : Work)

/-- R74: a window that moves is painted again. -/
theorem Work.setFirst_due {f : Nat} (h : f ≠ w.c.first) :
    (w.setFirst f).st.paint.resume ≠ none ∨ .band ∈ (w.setFirst f).st.paint.dirty := by
  unfold Work.setFirst
  rw [if_neg h]
  exact w.st.paint.add_band_due true

/-- R75: a cursor that moves is shown again. -/
theorem Work.moveCursor_pending {q : Pos} (h : q ≠ w.c.cursor) : (w.moveCursor q).st.paint.cursorPending = true := by
  unfold Work.moveCursor
  rw [if_neg h]
  rfl

@[simp] theorem Work.moveCursor_resume (q : Pos) : (w.moveCursor q).st.paint.resume = w.st.paint.resume := by
  unfold Work.moveCursor
  split <;> rfl

@[simp] theorem Work.moveCursor_dirty (q : Pos) : (w.moveCursor q).st.paint.dirty = w.st.paint.dirty := by
  unfold Work.moveCursor
  split <;> rfl

end

/-! ### The exit and the move (R77) -/

section
variable {s : State} {i : StationId} {v : TemplateVersion} {c : Context} {k : Byte} {key : Key} {f : Nat} {q : Pos}

/-- R74, R75: a key that moves the window and the cursor, and does no more. -/
theorem Keying.moved (h : Keying s i v c) (hk : decodeKey k = some key)
    (applied : (s.keyWork i c).applyDecoded key = ((s.keyWork i c).setFirst f).moveCursor q) :
    Keyed s (State.deliverKey i s k) i .none { c with adjusted := false, first := f, cursor := q }
      ∧ (q ≠ c.cursor → ((State.deliverKey i s k).station i).paint.cursorPending = true)
      ∧ (f ≠ c.first → ((State.deliverKey i s k).station i).paint.resume ≠ none
        ∨ .band ∈ ((State.deliverKey i s k).station i).paint.dirty) := by
  have lock : (((s.keyWork i c).setFirst f).moveCursor q).st.lock = .none :=
    (Work.lock_eq_of_seat (by simp)).trans h.keyWork_lock
  obtain ⟨keyed, paint⟩ := h.keyed hk applied ((Work.setFirst_edited _ _).trans (Work.moveCursor_edited _ _)) lock
  rw [Work.moveCursor_c, Work.setFirst_c, State.keyWork_c] at keyed
  refine ⟨keyed, fun hq => ?_, fun hf => ?_⟩
  · rw [paint]
    exact Work.moveCursor_pending _ (by rwa [Work.setFirst_c, State.keyWork_c])
  · rw [paint, Work.moveCursor_resume, Work.moveCursor_dirty]
    exact Work.setFirst_due _ (by rwa [State.keyWork_c])

theorem State.keyWork_frame (s : State) (i : StationId) (c : Context) : SameFrame c (s.keyWork i c).c := by
  rw [State.keyWork_c]
  exact ⟨rfl, rfl, rfl⟩

/-- R59: no edit is under way when the key comes. -/
theorem Keying.idle (h : Keying s i v c) (hi : c.editing = false ∨ under v c = none) :
    (s.keyWork i c).c.editing = false ∨ (s.keyWork i c).under = none := by
  rwa [State.keyWork_c, h.keyWork_under]

/-- R77: a key whose act is an exit and a move. -/
theorem Keying.keyMoves (h : Keying s i v c) (hk : decodeKey k = some key)
    (applied : (s.keyWork i c).applyDecoded key = (s.keyWork i c).exitThenMove true false [] f q) :
    KeyMoves s i v c k f q := by
  refine ⟨fun hi => ?_, fun u hu he => ⟨fun code hx => ?_, fun y hy => ?_⟩⟩
  · exact h.moved hk (applied.trans (Work.exitThenMove_idle (h.idle hi) true false f q))
  · have refused := h.exitRefused hk applied (.refl _) (h.inEdit hu he) hx
    rwa [State.keyWork_c] at refused
  · exact h.exitPasses hk applied (.refl _) (h.inEdit hu he) hy fun _ => rfl

end

/-! ### The roll at the foot and at the head of the band (R79, R81, R83) -/

/-- R79, R83: rows lie below the window, and the cursor is on the row of its last slot. -/
def OnFoot (v : TemplateVersion) (c : Context) : Prop :=
  c.first + v.group.visible ≤ c.rows.length ∧ c.cursor.row + 1 = v.group.first + v.group.visible

/-- R81: rows lie above the window, and the cursor is on the row of its first slot. -/
def OnHead (v : TemplateVersion) (c : Context) : Prop := 1 < c.first ∧ c.cursor.row = v.group.first

/-- R80: the cursor is in a field of the tab set, behind its first position. -/
def InsideOpen (v : TemplateVersion) (c : Context) : Prop :=
  ∃ u, under v c = some u ∧ u.field.prot = false ∧ u.field.col < c.cursor.col

theorem firstOpenCol_eq (v : TemplateVersion) :
    firstOpenCol v = (v.rowDefs.find? fun d => !d.prot).map FieldDef.col := by
  rw [firstOpenCol, List.head?_filter]

theorem lastOpenCol_eq (v : TemplateVersion) :
    lastOpenCol v = (v.rowDefs.reverse.find? fun d => !d.prot).map FieldDef.col := by
  rw [lastOpenCol, List.getLast?_filter]

/-- A row with a first open field has a last one. -/
theorem firstOpenCol_isSome (v : TemplateVersion) : (firstOpenCol v).isSome = (lastOpenCol v).isSome := by
  rw [firstOpenCol, lastOpenCol]
  cases v.rowDefs.filter fun d => !d.prot <;> simp

section
variable {s : State} {i : StationId} {v : TemplateVersion} {c : Context}

theorem Keying.atFoot (h : Keying s i v c) :
    (s.keyWork i c).atFoot = true ↔ OnFoot v c ∧ (firstOpenCol v).isSome = true := by
  unfold Work.atFoot Work.rowCount OnFoot
  rw [h.keyWork_v, State.keyWork_c]
  simp only [Bool.and_eq_true, decide_eq_true_eq, beq_iff_eq]
  tauto

theorem Keying.atHead (h : Keying s i v c) :
    (s.keyWork i c).atHead = true ↔ OnHead v c ∧ ∃ a, firstOpenCol v = some a ∧ c.cursor.col ≤ a := by
  unfold Work.atHead OnHead
  rw [h.keyWork_v, State.keyWork_c]
  cases firstOpenCol v <;> simp [and_assoc]

theorem Keying.footTarget (h : Keying s i v c) {a : Nat} (ha : firstOpenCol v = some a) :
    (s.keyWork i c).footTarget = ⟨v.group.first + v.group.visible - 1, a⟩ := by
  rw [Work.footTarget, h.keyWork_v, ha]
  rfl

/-! ### TAB and NEWLINE (R78, R79, R83) -/

theorem Keying.tab_rolls (h : Keying s i v c) {a b : Nat} (ha : firstOpenCol v = some a)
    (hb : lastOpenCol v = some b) (foot : OnFoot v c) (behind : b ≤ c.cursor.col) :
    (s.keyWork i c).tabDecision = (c.first + 1, ⟨v.group.first + v.group.visible - 1, a⟩) := by
  have atFoot := h.atFoot.mpr ⟨foot, by rw [ha]; rfl⟩
  have last : ((lastOpenCol v).getD 81 ≤ c.cursor.col) := by rwa [hb]
  rw [Work.tabDecision, h.footTarget ha, atFoot, h.keyWork_v, State.keyWork_c]
  simp only [last, decide_true, Bool.and_self, if_true]

theorem Keying.tab_stays (h : Keying s i v c)
    (stays : ¬(OnFoot v c ∧ ∃ b, lastOpenCol v = some b ∧ b ≤ c.cursor.col)) :
    (s.keyWork i c).tabDecision = (c.first, nextTab v c c.cursor) := by
  unfold Work.tabDecision
  rw [if_neg, h.keyWork_v, State.keyWork_c]
  · rfl
  · rw [Bool.and_eq_true, decide_eq_true_eq, h.atFoot, firstOpenCol_isSome, h.keyWork_v, State.keyWork_c]
    rintro ⟨⟨foot, opened⟩, behind⟩
    obtain ⟨b, hb⟩ := Option.isSome_iff_exists.mp opened
    rw [hb] at behind
    exact stays ⟨foot, b, hb, behind⟩

theorem Keying.newline_rolls (h : Keying s i v c) {a : Nat} (ha : firstOpenCol v = some a) (foot : OnFoot v c) :
    (s.keyWork i c).newlineDecision = (c.first + 1, ⟨v.group.first + v.group.visible - 1, a⟩) := by
  rw [Work.newlineDecision, h.footTarget ha, if_pos (h.atFoot.mpr ⟨foot, by rw [ha]; rfl⟩), State.keyWork_c]

theorem Keying.newline_stays (h : Keying s i v c) (stays : ¬(OnFoot v c ∧ (firstOpenCol v).isSome = true)) :
    (s.keyWork i c).newlineDecision = (c.first, nextRowTab v c c.cursor) := by
  unfold Work.newlineDecision
  rw [if_neg (mt h.atFoot.mp stays), h.keyWork_v, State.keyWork_c]
  rfl

/-! ### BACKTAB (R80, R81) -/

theorem Keying.ownStart_inside (h : Keying s i v c) {u : Under} (hu : under v c = some u) (hp : u.field.prot = false)
    (inside : u.field.col < c.cursor.col) : (s.keyWork i c).ownStart = some ⟨c.cursor.row, u.field.col⟩ := by
  obtain ⟨hat, defined, -⟩ := under_some hu
  have start : fieldStart v c u.ref = ⟨c.cursor.row, u.field.col⟩ := (instAt_spec hat defined).1
  unfold Work.ownStart
  rw [h.keyWork_under, hu, h.keyWork_v, State.keyWork_c, ← start]
  simp only [hp, inside, Bool.not_false, decide_true, Bool.and_self, if_true]
  rfl

theorem Keying.ownStart_outside (h : Keying s i v c) (outside : ¬InsideOpen v c) :
    (s.keyWork i c).ownStart = none := by
  unfold Work.ownStart
  rw [h.keyWork_under, State.keyWork_c]
  split
  · rename_i u hu
    refine if_neg fun inside => outside ⟨u, hu, ?_⟩
    simpa using inside
  · rfl

theorem Keying.backtab_goes_to_own_start (h : Keying s i v c) {u : Under} (hu : under v c = some u)
    (hp : u.field.prot = false) (inside : u.field.col < c.cursor.col) :
    (s.keyWork i c).backtabDecision = (c.first, ⟨c.cursor.row, u.field.col⟩) := by
  rw [Work.backtabDecision, h.ownStart_inside hu hp inside, State.keyWork_c]

theorem Keying.backtab_rolls (h : Keying s i v c) (outside : ¬InsideOpen v c) {a b : Nat}
    (ha : firstOpenCol v = some a) (hb : lastOpenCol v = some b) (head : OnHead v c) (before : c.cursor.col ≤ a) :
    (s.keyWork i c).backtabDecision = (c.first - 1, ⟨v.group.first, b⟩) := by
  rw [Work.backtabDecision, h.ownStart_outside outside]
  dsimp only
  rw [if_pos (h.atHead.mpr ⟨head, a, ha, before⟩), h.keyWork_v, State.keyWork_c, hb]
  rfl

theorem Keying.backtab_stays (h : Keying s i v c) (outside : ¬InsideOpen v c)
    (stays : ¬(OnHead v c ∧ ∃ a, firstOpenCol v = some a ∧ c.cursor.col ≤ a)) :
    (s.keyWork i c).backtabDecision = (c.first, previousTab v c c.cursor) := by
  rw [Work.backtabDecision, h.ownStart_outside outside]
  dsimp only
  rw [if_neg (mt h.atHead.mp stays), h.keyWork_v, State.keyWork_c]
  rfl

/-! ### The four keys -/

theorem Keying.tabMoves (h : Keying s i v c) {f : Nat} {q : Pos} (decided : (s.keyWork i c).tabDecision = (f, q)) :
    KeyMoves s i v c 0x90 f q := by
  refine h.keyMoves (key := .tab) rfl ?_
  rw [Work.applyDecoded, Work.moveAsTab, decided]

theorem Keying.newlineMoves (h : Keying s i v c) {f : Nat} {q : Pos}
    (decided : (s.keyWork i c).newlineDecision = (f, q)) : KeyMoves s i v c 0x93 f q := by
  refine h.keyMoves (key := .newline) rfl ?_
  rw [Work.applyDecoded, decided]

theorem Keying.backtabMoves (h : Keying s i v c) {f : Nat} {q : Pos}
    (decided : (s.keyWork i c).backtabDecision = (f, q)) : KeyMoves s i v c 0x91 f q := by
  refine h.keyMoves (key := .backtab) rfl ?_
  rw [Work.applyDecoded, decided]

theorem Keying.homeMoves (h : Keying s i v c) : KeyMoves s i v c 0x92 c.first (homePos v c) := by
  refine h.keyMoves (key := .home) rfl ?_
  rw [Work.applyDecoded, h.keyWork_v, State.keyWork_c]
  rfl

end

/-- Settles O46: each key goes where the decision of its rule says, and the search of the tab set finds the one target. -/
theorem tabKeysMove : Obligations.TabKeysMove := by
  intro s i v c h
  dsimp only
  have openCols : ∀ {d : FieldDef}, (v.rowDefs.find? fun d => !d.prot) = some d → firstOpenCol v = some d.col :=
    fun hd => by rw [firstOpenCol_eq, hd]; rfl
  have lastCols : ∀ {d : FieldDef}, (v.rowDefs.reverse.find? fun d => !d.prot) = some d → lastOpenCol v = some d.col :=
    fun hd => by rw [lastOpenCol_eq, hd]; rfl
  refine ⟨fun a b ha hb => ⟨fun foot behind => ?_, fun foot => ?_, fun outside head before => ?_⟩,
    fun target stays ht => ?_, fun target stays ht => ?_, fun u hu hp inside => ?_, fun target outside stays ht => ?_,
    fun target ht => ?_⟩
  · exact h.tabMoves (h.tab_rolls (openCols ha) (lastCols hb) foot behind)
  · exact h.newlineMoves (h.newline_rolls (openCols ha) foot)
  · exact h.backtabMoves (h.backtab_rolls outside (openCols ha) (lastCols hb) head before)
  · cases forwardTarget_unique (nextTab_target v c c.cursor) ht
    refine h.tabMoves (h.tab_stays fun ⟨foot, b, hb, behind⟩ => stays ⟨foot, ?_⟩)
    rw [lastOpenCol_eq] at hb
    obtain ⟨d, hd, rfl⟩ := Option.map_eq_some_iff.mp hb
    exact ⟨d, hd, behind⟩
  · cases forwardTarget_unique (nextRowTab_target v c c.cursor) ht
    refine h.newlineMoves (h.newline_stays fun ⟨foot, hopen⟩ => stays ⟨foot, fun unopened => ?_⟩)
    rw [firstOpenCol_eq, unopened] at hopen
    cases hopen
  · exact h.backtabMoves (h.backtab_goes_to_own_start hu hp inside)
  · cases backwardTarget_unique (previousTab_target v c) ht
    refine h.backtabMoves (h.backtab_stays outside fun ⟨head, a, ha, before⟩ => stays ⟨head, ?_⟩)
    rw [firstOpenCol_eq] at ha
    obtain ⟨d, hd, rfl⟩ := Option.map_eq_some_iff.mp ha
    exact ⟨d, hd, before⟩
  · cases homeTarget_unique (homePos_target v c) ht
    exact h.homeMoves

end Sys2Proof.Machine

/-! PROOFS. The arrow keys (R75, R84) and the roll keys (R86): keys that exit the field under the cursor only where their
move calls for it. -/

namespace Sys2Proof.Machine

section
variable {s : State} {i : StationId} {v : TemplateVersion} {c : Context} {k : Byte} {key : Key}

/-- R84, R86: a move that calls for no exit. -/
theorem Work.exitThenMove_without_exit (w : Work) (negate : Bool) (f : Nat) (q : Pos) :
    w.exitThenMove false negate [] f q = (w.setFirst f).moveCursor q := by
  simp [Work.exitThenMove]

/-! ### Arrow keys (R84) -/

theorem Keying.arrowMoves (h : Keying s i v c) (hk : decodeKey k = some key) {target : Pos}
    (applied : (s.keyWork i c).applyDecoded key = (s.keyWork i c).arrow target) :
    (instAt v c target ≠ instAt v c c.cursor → KeyMoves s i v c k c.first target)
      ∧ (instAt v c target = instAt v c c.cursor →
        Keyed s (State.deliverKey i s k) i .none { c with adjusted := false, cursor := target }) := by
  have same := instAt_frame (v := v) (s.keyWork_frame i c)
  have arrow : (s.keyWork i c).arrow target = (s.keyWork i c).exitThenMove
      (instAt v c target != instAt v c c.cursor) false [] c.first target := by
    rw [Work.arrow, h.keyWork_v, same, same, State.keyWork_c]
  rw [arrow] at applied
  refine ⟨fun leaves => h.keyMoves hk ?_, fun stays => (h.moved (f := c.first) hk ?_).1⟩
  · rwa [bne_iff_ne.mpr leaves] at applied
  · rwa [bne_eq_false_iff_eq.mpr stays, Work.exitThenMove_without_exit] at applied

/-! ### Roll keys (R86) -/

theorem Keying.rollMoves (h : Keying s i v c) (hk : decodeKey k = some key) {f : Nat}
    (applied : (s.keyWork i c).applyDecoded key = (s.keyWork i c).rollTo f) :
    (v.group.visible = 0 → Keyed s (State.deliverKey i s k) i .none { c with adjusted := false })
      ∧ (v.group.visible ≠ 0 → InBand v.group c.cursor.row →
        KeyMoves s i v c k (clampFirst v.group c.rows.length f) c.cursor)
      ∧ (v.group.visible ≠ 0 → ¬InBand v.group c.cursor.row → Keyed s (State.deliverKey i s k) i .none
        { c with adjusted := false, first := clampFirst v.group c.rows.length f }) := by
  have rolls : v.group.visible ≠ 0 → (s.keyWork i c).rollTo f = (s.keyWork i c).exitThenMove
      (isBandRow v.group c.cursor.row) false [] (clampFirst v.group c.rows.length f) c.cursor := fun banded => by
    rw [Work.rollTo, Work.rowCount, h.keyWork_v, if_neg banded, State.keyWork_c]
  refine ⟨fun bandless => ?_, fun banded band => h.keyMoves hk ?_, fun banded beside => ?_⟩
  · rw [Work.rollTo, h.keyWork_v, if_pos bandless] at applied
    have keyed := (h.keyed hk applied (.refl _) h.keyWork_lock).1
    rwa [State.keyWork_c] at keyed
  · rwa [rolls banded, isBandRow_eq_true.mpr band] at applied
  · rw [rolls banded, isBandRow_eq_false.mpr beside, Work.exitThenMove_without_exit] at applied
    exact (h.moved hk applied).1

end

/-- Settles O47: each arrow key has its neighbour on the screen as its target, each roll key its clamped window. -/
theorem arrowAndRollKeysMove : Obligations.ArrowAndRollKeysMove := by
  intro s i v c h
  have form := State.keyWork_c (s := s) (i := i) (c := c)
  refine ⟨⟨?_, ?_, ?_, ?_⟩, ?_, ?_⟩
  · exact h.arrowMoves (key := .up) rfl (by rw [Work.applyDecoded, form]; rfl)
  · exact h.arrowMoves (key := .down) rfl (by rw [Work.applyDecoded, form]; rfl)
  · exact h.arrowMoves (key := .left) rfl (by rw [Work.applyDecoded, form]; rfl)
  · exact h.arrowMoves (key := .right) rfl (by rw [Work.applyDecoded, form]; rfl)
  · exact h.rollMoves (key := .rollUp) rfl (by rw [Work.applyDecoded, form, rollStep, h.keyWork_v])
  · exact h.rollMoves (key := .rollDown) rfl (by rw [Work.applyDecoded, form, rollStep, h.keyWork_v])

end Sys2Proof.Machine

/-! PROOFS. ROW INSERT and ROW DELETE (R87 to R91): their refusals, the place of the operator's row, and what the row pool,
the form and the part are when a row has joined or left. -/

namespace Sys2Proof.Machine

/-! ### What the acts change -/

/-- R94: the PRODUCT instances of a row alone. -/
theorem Tallied.computeRow (w : Work) (p : Nat) : Tallied w.v w.c (w.computeRow p).c := by
  have products : w.computeRow p = ((pick w.v.rowDefs isProduct).map (.row p)).foldl Work.compute w :=
    List.foldl_map.symm
  rw [products]
  exact Tallied.computeAll _ w

theorem Tallied.computeAllSums (w : Work) : Tallied w.v w.c w.computeAllSums.c := by
  have sums : w.computeAllSums = ((pick w.v.fixed isSum).map .fixed).foldl Work.compute w := List.foldl_map.symm
  rw [sums]
  exact Tallied.computeAll _ w

section
variable (w : Work)

/-- R94: a SUM stands outside the rows. -/
theorem Work.computeAllSums_rows : w.computeAllSums.c.rows = w.c.rows := by
  refine foldl_measure (g := fun w : Work => w.c.rows) (fun w j => ?_) _ w
  unfold Work.compute
  split
  · rw [Work.putInst_c]
    split <;> rfl
  · rfl

theorem Work.computeAllSums_edited : w.Edited w.computeAllSums := .foldl (fun w _ => w.compute_edited _) _ _

theorem Work.computeRow_edited (p : Nat) : w.Edited (w.computeRow p) := .foldl (fun w _ => w.compute_edited _) _ _

theorem Work.computeProductsOf_edited (l : List (Nat × Nat)) : w.Edited (w.computeProductsOf l).1 :=
  foldl_keeps (P := fun p : Work × List Nat => w.Edited p.1) (f := Work.computeProduct)
    (fun p _ hp => hp.trans (p.1.compute_edited _)) _ (b := (w, _)) (.refl w)

end

theorem Work.markCursor_edited (w : Work) : w.Edited w.markCursor := rfl

theorem Work.Edited.takeRow {a b : Work} (h : a.Edited b) : a.takeRow.Edited b.takeRow := by
  unfold Work.Edited at *
  rw [h]
  rfl

theorem Work.Edited.returnRow {a b : Work} (h : a.Edited b) : a.returnRow.Edited b.returnRow := by
  unfold Work.Edited at *
  rw [h]
  rfl

theorem Work.Edited.station {a b : Work} (h : a.Edited b) :
    b.st = { a.st with lock := b.st.lock, paint := b.st.paint } := congrArg Work.st h

theorem State.keyWork_edited (s : State) (i : StationId) (c : Context) : (s.openWork i c).Edited (s.keyWork i c) :=
  Work.setAdjusted_edited _ _

/-! ### The band slot of the cursor (R73) -/

section
variable {v : TemplateVersion} {c : Context}

/-- R73: the position of the row that the band shows on the cursor's row, if there is one. -/
def shownRow (v : TemplateVersion) (c : Context) : Nat := c.first + (c.cursor.row - v.group.first)

theorem slotRow_cursor (band : InBand v.group c.cursor.row) : c.slotRow (c.cursor.row + 1 - v.group.first)
    = if 1 ≤ shownRow v c ∧ shownRow v c ≤ c.rows.length then some (shownRow v c) else none := by
  have place : c.first + (c.cursor.row + 1 - v.group.first) - 1 = shownRow v c := by
    have := band.1
    unfold shownRow
    omega
  unfold Context.slotRow
  rw [place]
  simp only [Bool.and_eq_true, decide_eq_true_eq]

/-- R88: the place of the operator's row. -/
def insertPlace (v : TemplateVersion) (c : Context) : Nat :=
  if 1 ≤ shownRow v c ∧ shownRow v c ≤ c.rows.length then shownRow v c else c.rows.length + 1

/-- R88: the column of the first open row field, else of the first row field. -/
def newRowCol (v : TemplateVersion) : Nat := ((firstOpenCol v).or (v.rowDefs.head?.map FieldDef.col)).getD 1

theorem Work.newRowStart_eq (w : Work) (p : Nat) :
    w.newRowStart p = ⟨w.v.group.first + p - w.c.first, newRowCol w.v⟩ := by
  unfold Work.newRowStart newRowCol
  cases firstOpenCol w.v <;> rfl

end

/-! ### The operator's row joins (R87, R88) -/

section
variable (w : Work)

/-- R88: the rows of a form with the operator's row at position `p`. -/
def rowsJoined (v : TemplateVersion) (rows : List RowRec) (p : Nat) : List RowRec :=
  rows.take (p - 1) ++ initialRow v.rowDefs none true :: rows.drop (p - 1)

/-- R88: the row taken from the pool and put in its place, with the cursor on it. -/
def Work.placeOperatorRow (p : Nat) : Work :=
  (w.takeRow.insertRowAt p (initialRow w.v.rowDefs none true)).moveCursor (w.newRowStart p)

/-- R88, R95: the PRODUCT instances that the new row and the exit before it call for. -/
def Work.countOperatorRow (p : Nat) (l : List (Nat × Nat)) : Work :=
  (((w.placeOperatorRow p).computeRow p).computeProductsOf (l.map (behindInsert p))).1

/-- R88: the position of the operator's row. -/
def Work.operatorPlace : Nat := (w.c.slotRow w.cursorSlot).getD (w.rowCount + 1)

theorem Work.insertOperatorRow_eq (l : List (Nat × Nat)) :
    w.insertOperatorRow l = ((w.countOperatorRow w.operatorPlace l).computeAllSums.dirty .band).markCursor := by
  unfold Work.insertOperatorRow Work.operatorPlace
  cases w.c.slotRow w.cursorSlot <;> rfl

theorem Work.placeOperatorRow_v (p : Nat) : (w.placeOperatorRow p).v = w.v := Work.moveCursor_v _ _

theorem Work.placeOperatorRow_c (p : Nat) : (w.placeOperatorRow p).c
    = { w.c with rows := rowsJoined w.v w.c.rows p, cursor := w.newRowStart p } := Work.moveCursor_c _ _

theorem Work.placeOperatorRow_edited (p : Nat) : w.takeRow.Edited (w.placeOperatorRow p) :=
  Work.Edited.trans (b := w.takeRow.insertRowAt p (initialRow w.v.rowDefs none true)) rfl (Work.moveCursor_edited _ _)

theorem Work.countOperatorRow_edited (p : Nat) (l : List (Nat × Nat)) :
    w.takeRow.Edited (w.countOperatorRow p l) :=
  ((w.placeOperatorRow_edited p).trans (Work.computeRow_edited _ _)).trans (Work.computeProductsOf_edited _ _)

theorem Work.countOperatorRow_tallied (p : Nat) (l : List (Nat × Nat)) : (w.countOperatorRow p l).v = w.v
    ∧ Tallied w.v (w.placeOperatorRow p).c (w.countOperatorRow p l).c := by
  have rowVersion : ((w.placeOperatorRow p).computeRow p).v = w.v :=
    (Work.computeRow_keeps _ _).version.trans (w.placeOperatorRow_v p)
  obtain ⟨version, products⟩ := Tallied.computeProductsOf ((w.placeOperatorRow p).computeRow p) (l.map (behindInsert p))
  have row := Tallied.computeRow (w.placeOperatorRow p) p
  rw [rowVersion] at version products
  rw [w.placeOperatorRow_v p] at row
  unfold Work.countOperatorRow
  exact ⟨version, row.trans products⟩

theorem Work.insertOperatorRow_edited (l : List (Nat × Nat)) : w.takeRow.Edited (w.insertOperatorRow l) := by
  rw [w.insertOperatorRow_eq l]
  have counted := (w.countOperatorRow_edited w.operatorPlace l).trans (Work.computeAllSums_edited _)
  exact (counted.trans (Work.dirty_edited _ .band)).trans (Work.markCursor_edited _)

theorem Work.insertOperatorRow_lock (l : List (Nat × Nat)) : (w.insertOperatorRow l).st.lock = w.st.lock := by
  have joined := congrArg Seat.lock (w.insertTakenRow_seat w.operatorPlace (initialRow w.v.rowDefs none true))
  refine Eq.trans (Work.lock_eq_of_seat ?_) joined
  simp [w.insertOperatorRow_eq l, Work.countOperatorRow, Work.placeOperatorRow]

/-- R88: the form once the row has joined, but for the derived instances. -/
theorem Work.insertOperatorRow_tallied (l : List (Nat × Nat)) :
    Tallied w.v { w.c with rows := rowsJoined w.v w.c.rows w.operatorPlace, cursor := w.newRowStart w.operatorPlace }
      (w.insertOperatorRow l).c := by
  obtain ⟨version, products⟩ := w.countOperatorRow_tallied w.operatorPlace l
  rw [w.insertOperatorRow_eq l, Work.markCursor_c, Work.dirty_c, ← w.placeOperatorRow_c]
  exact products.trans (version ▸ Tallied.computeAllSums _)

theorem Work.insertOperatorRow_pending (l : List (Nat × Nat)) :
    (w.insertOperatorRow l).st.paint.cursorPending = true := by
  rw [w.insertOperatorRow_eq l]
  rfl

/-! ### The checks of ROW INSERT (R87) -/

theorem Work.rowInsertKey_elsewhere
    (h : w.v.group.insertAllowed = false ∨ isBandRow w.v.group w.c.cursor.row = false) :
    w.rowInsertKey = w.operatorError .isProtected := by
  unfold Work.rowInsertKey
  rw [if_pos (by rcases h with h | h <;> simp [h])]

/-- R87: a failed exit is the end of the act, and the row joins behind a passed one. -/
def ExitOutcome.thenInsert (e : ExitOutcome) : Work :=
  match e with
  | .failed w => w
  | .passed w changed => w.insertOperatorRow changed

section
variable {w} (allowed : w.v.group.insertAllowed = true) (band : isBandRow w.v.group w.c.cursor.row = true)
include allowed band

theorem Work.rowInsertKey_noRoom (h : w.v.group.maxRows ≤ w.rowCount ∨ w.freeRows = 0) :
    w.rowInsertKey = w.operatorError .noRoom := by
  unfold Work.rowInsertKey
  rw [if_neg (by simp [allowed, band])]
  split
  · rfl
  · rename_i room
    rw [if_pos (h.resolve_left room)]

/-- R87: where nothing refuses it, ROW INSERT exits the field first. -/
theorem Work.rowInsertKey_exits (room : w.rowCount < w.v.group.maxRows) (free : 0 < w.freeRows) :
    w.rowInsertKey = (w.exitField false).thenInsert := by
  unfold Work.rowInsertKey
  rw [if_neg (by simp [allowed, band]), if_neg (Nat.not_le.mpr room), if_neg free.ne']
  cases w.exitField false <;> rfl

end

end

/-! ### The act stored (R31, R32) -/

section
variable {s : State} {i : StationId} {w : Work}

/-- An act that latches no attention: the station and the row pool, and POOL LOW where the act raised it. -/
theorem State.closeWork_unlatched (hl : w.latched = none) : s.closeWork i w
    = if w.poolLow then (s.storeWork i w).raise .poolLow else s.storeWork i w := by
  unfold State.closeWork
  rw [hl]
  rfl

theorem State.closeWork_raw (hl : w.latched = none) :
    (s.closeWork i w).raw = if w.poolLow then s.raw.raise .poolLow else s.raw := by
  rw [State.closeWork_unlatched hl]
  split
  · exact State.raise_raw _ _
  · rfl

/-- R32, R192: such an act leaves alone what is not its station's, the row pool's or the events'. -/
theorem State.closeWork_others (hl : w.latched = none) : s.closeWork i w = { s with
    stations := (s.closeWork i w).stations, freeRows := (s.closeWork i w).freeRows, raw := (s.closeWork i w).raw
    event := (s.closeWork i w).event, waiting := (s.closeWork i w).waiting } := by
  rw [State.closeWork_unlatched hl]
  split
  · conv_lhs => rw [State.raise_eq]
    rw [State.raise_stations, State.raise_freeRows, State.raise_raw]
    rfl
  · rfl

/-- R32: POOL LOW is raised by the record that leaves 31 in the pool. -/
theorem poolFalls_one (free : Nat) : poolFalls free 1 = decide (free = 32) := by
  have : (Config.poolLowMark < free ∧ free - 1 ≤ Config.poolLowMark) ↔ free = 32 := by
    unfold Config.poolLowMark
    omega
  simp only [poolFalls, ← Bool.decide_and, this]

end

/-! ### ROW INSERT at the station -/

section
variable {s : State} {i : StationId} {v : TemplateVersion} {c : Context}

/-- R88: `t` is `s` after the operator's row has joined the form `b` of station `i` at position `p`, with the cursor put
at `q`. -/
def OperatorRowJoined (s t : State) (i : StationId) (v : TemplateVersion) (b : Context) (p : Nat) (q : Pos) : Prop :=
  ∃ c', t.station i = { s.station i with ctx := some c', paint := (t.station i).paint }
    ∧ c' = { b with fixed := c'.fixed, rows := c'.rows, cursor := q }
    ∧ FixedKept v b.fixed c'.fixed ∧ List.Forall₂ (RowKept v) (rowsJoined v b.rows p) c'.rows
    ∧ (t.station i).paint.cursorPending = true ∧ t.freeRows + 1 = s.freeRows
    ∧ t.raw = (if s.freeRows = 32 then s.raw.raise .poolLow else s.raw)
    ∧ t = { s with
        stations := t.stations, freeRows := t.freeRows, raw := t.raw, event := t.event, waiting := t.waiting }
    ∧ ∀ j, j ≠ i → t.station j = s.station j

theorem State.keyWork_freeRows : (s.keyWork i c).freeRows = s.freeRows :=
  congrArg Seat.free (Work.setAdjusted_seat _ _)

/-- The station when an act is over that has changed its form and what is to be painted, and its lock to NONE at most. -/
theorem Keying.closeWork_form (h : Keying s i v c) {w : Work}
    (kept : w.st = { s.station i with lock := w.st.lock, paint := w.st.paint }) (lock : w.st.lock = .none) :
    (s.closeWork i w).station i = { s.station i with ctx := some w.c, paint := w.st.paint } := by
  rw [State.closeWork_station, if_pos rfl, kept, lock, ← h.2.1]

/-- R88: the end of an act that has inserted the operator's row. -/
theorem Keying.closeWork_joined (h : Keying s i v c) {w : Work} (edited : (s.openWork i c).Edited w)
    (lock : w.st.lock = .none) (version : w.v = v) (free : 0 < s.freeRows) (l : List (Nat × Nat)) :
    OperatorRowJoined s (s.closeWork i (w.insertOperatorRow l)) i v w.c w.operatorPlace
      (w.newRowStart w.operatorPlace) := by
  have whole : (s.openWork i c).takeRow.Edited (w.insertOperatorRow l) :=
    edited.takeRow.trans (w.insertOperatorRow_edited l)
  have ends := (w.insertOperatorRow_lock l).trans lock
  have tallied := version ▸ w.insertOperatorRow_tallied l
  have pending := w.insertOperatorRow_pending l
  generalize w.insertOperatorRow l = done at whole ends tallied pending ⊢
  have latched : done.latched = none := by rw [whole]; rfl
  have poolLow : done.poolLow = poolFalls s.freeRows 1 := by rw [whole]; rfl
  have freeRows : done.freeRows = s.freeRows - 1 := by rw [whole]; rfl
  have station := h.closeWork_form whole.station ends
  refine ⟨done.c, ?_, tallied.others, tallied.fixedKept, tallied.rowKept, ?_, ?_, ?_, State.closeWork_others latched,
    fun j hj => ?_⟩
  · rw [station]
  · rw [station]; exact pending
  · rw [State.closeWork_freeRows, freeRows]; omega
  · rw [State.closeWork_raw latched, poolLow, poolFalls_one]
    simp only [decide_eq_true_eq]
  · rw [State.closeWork_station, if_neg hj]

theorem operatorPlace_frame {w : Work} (version : w.v = v) (frame : SameFrame c w.c)
    (band : InBand v.group c.cursor.row) : w.operatorPlace = insertPlace v c := by
  unfold Work.operatorPlace Work.cursorSlot Work.rowCount insertPlace
  rw [slotRow_frame frame, version, frame.cursor, frame.rows, slotRow_cursor band]
  split <;> rfl

section
variable (h : Keying s i v c) (allowed : v.group.insertAllowed = true) (band : InBand v.group c.cursor.row)
include h allowed band

theorem Keying.insertAllowed : (s.keyWork i c).v.group.insertAllowed = true
    ∧ isBandRow (s.keyWork i c).v.group (s.keyWork i c).c.cursor.row = true := by
  rw [h.keyWork_v, State.keyWork_c]
  exact ⟨allowed, isBandRow_eq_true.mpr band⟩

theorem Keying.rowInsert_noRoom (full : v.group.maxRows ≤ c.rows.length ∨ s.freeRows = 0) :
    KeyRefused s (State.deliverKey i s 0x9A) i .noRoom { c with adjusted := false } := by
  obtain ⟨allowedHere, bandHere⟩ := h.insertAllowed allowed band
  refine h.refused (key := .rowInsert) rfl (Work.rowInsertKey_noRoom allowedHere bandHere ?_)
  rw [h.keyWork_v, State.keyWork_freeRows, Work.rowCount, State.keyWork_c]
  exact full

variable (room : c.rows.length < v.group.maxRows) (free : 0 < s.freeRows)
include room free

theorem Keying.rowInsert_exits :
    (s.keyWork i c).applyDecoded .rowInsert = ((s.keyWork i c).exitField false).thenInsert := by
  obtain ⟨allowedHere, bandHere⟩ := h.insertAllowed allowed band
  refine Work.rowInsertKey_exits allowedHere bandHere ?_ ?_
  · rw [h.keyWork_v, Work.rowCount, State.keyWork_c]
    exact room
  · rwa [State.keyWork_freeRows]

/-- R87: a failed exit leaves the row list as it is. -/
theorem Keying.rowInsert_fails {u : Under} (hu : under v c = some u) (he : c.editing = true) {code : ErrorCode}
    (hx : exitCheck u.field u.inst false = .error code) : KeyRefused s (State.deliverKey i s 0x9A) i code
      { c with adjusted := false, cursor := fieldStart v c u.ref } := by
  have editing := h.inEdit hu he
  have applied := h.rowInsert_exits allowed band room free
  rw [Work.exitField_error editing.workUnder editing.editing hx, h.keyWork_v, fieldStart_frame editing.frame,
    ExitOutcome.thenInsert] at applied
  obtain ⟨keyed, paint⟩ := h.keyed (k := 0x9A) rfl applied
    ((Work.moveCursor_edited _ _).trans (Work.operatorError_edited _ code)) (Work.operatorError_lock _ code)
  rw [Work.operatorError_c, Work.moveCursor_c, State.keyWork_c] at keyed
  exact ⟨keyed, by rw [paint]; rfl⟩

/-- R87, R88: the operator's row behind a passed exit. -/
theorem Keying.rowInsert_joins {w : Work} {l : List (Nat × Nat)} (hw : (s.keyWork i c).exitField false = .passed w l) :
    OperatorRowJoined s (State.deliverKey i s 0x9A) i v w.c (insertPlace v c)
      ⟨v.group.first + insertPlace v c - c.first, newRowCol v⟩ := by
  have applied := h.rowInsert_exits allowed band room free
  rw [hw] at applied
  have version : w.v = v := (Work.exitField_passed_keeps hw).version.trans h.keyWork_v
  have lock : w.st.lock = .none := (Work.lock_eq_of_seat (Work.exitField_passed_seat _ hw)).trans h.keyWork_lock
  have frame : SameFrame c w.c := (s.keyWork_frame i c).trans (Work.exitField_passed_frame hw)
  have joined := h.closeWork_joined ((s.keyWork_edited i c).trans (Work.exitField_passed_edited _ hw)) lock version free l
  rw [Work.newRowStart_eq, operatorPlace_frame version frame band, version, frame.first] at joined
  rwa [h.deliverKey (k := 0x9A) rfl, applied]

end

end

/-! ### The operator's row leaves (R89 to R91) -/

/-- R91: the tag of a deleted row joins the list, unless it is there. -/
theorem addDeletedTag_eq (tags : List Nat) (tag : Option Nat) :
    addDeletedTag tags tag = tags ++ tag.toList.filter (fun t => t ∉ tags) := by
  cases tag with
  | none => simp [addDeletedTag]
  | some t => by_cases ht : t ∈ tags <;> simp [addDeletedTag, ht]

/-- R89: the list is full, and the row's tag is not in it. -/
theorem deletedTagBlocked_iff (tags : List Nat) (tag : Option Nat) :
    deletedTagBlocked tags tag = true ↔ (∃ t, tag = some t ∧ t ∉ tags) ∧ 99 ≤ tags.length := by
  cases tag with
  | none => simp [deletedTagBlocked]
  | some t => rw [deletedTagBlocked, Bool.and_eq_true, decide_eq_true_eq]; simp [Config.deletedTags]

section
variable (w : Work)

theorem Work.deleteOperatorRow_edited (p : Nat) (x : RowRec) : w.returnRow.Edited (w.deleteOperatorRow p x) := by
  unfold Work.deleteOperatorRow
  extract_lets inRow _ tagged removed left _ clamped
  have cleared : w.returnRow.Edited clamped := by
    simp only [clamped, left]
    split <;> rfl
  exact (cleared.trans (Work.computeAllSums_edited _)).trans (Work.dirty_edited _ _)

theorem Work.deleteOperatorRow_lock (p : Nat) (x : RowRec) : (w.deleteOperatorRow p x).st.lock = w.st.lock := by
  unfold Work.deleteOperatorRow
  extract_lets inRow _ tagged removed left _ clamped
  have kept : clamped.st.lock = w.st.lock := by
    simp only [clamped, left]
    split <;> rfl
  rw [← kept]
  exact Work.lock_eq_of_seat (by simp)

/-- R90: the form once the row under the cursor has left. -/
theorem Work.deleteOperatorRow_tallied (p : Nat) (x : RowRec) :
    (w.deleteOperatorRow p x).c.rows = w.c.rows.take (p - 1) ++ w.c.rows.drop p
      ∧ Tallied w.v { w.c with
          deletedTags := addDeletedTag w.c.deletedTags x.tag
          rows := w.c.rows.take (p - 1) ++ w.c.rows.drop p
          first := clampFirst w.v.group (w.c.rows.take (p - 1) ++ w.c.rows.drop p).length w.c.first
          editing := w.c.editing && !(instAt w.v w.c w.c.cursor).isSome } (w.deleteOperatorRow p x).c := by
  obtain ⟨y, hy, version, form⟩ := w.deleteOperatorRow_eq p x
  rw [hy, Work.dirty_c, ← form, ← version]
  refine ⟨?_, Tallied.computeAllSums y⟩
  rw [Work.computeAllSums_rows, form]

/-! ### The checks of ROW DELETE (R89) -/

theorem Work.rowDeleteKey_elsewhere (h : w.v.group.deleteAllowed = false
    ∨ isBandRow w.v.group w.c.cursor.row = false ∨ w.c.slotRow w.cursorSlot = none) :
    w.rowDeleteKey = w.operatorError .isProtected := by
  unfold Work.rowDeleteKey
  rcases h with h | h | h
  · simp [h]
  · simp [h]
  · rw [h, ite_self]

variable {w}

theorem Work.rowDeleteKey_occupied (allowed : w.v.group.deleteAllowed = true)
    (band : isBandRow w.v.group w.c.cursor.row = true) {p : Nat} (hp : w.c.slotRow w.cursorSlot = some p) {x : RowRec}
    (hx : w.c.row? p = some x) : w.rowDeleteKey =
      if deletedTagBlocked w.c.deletedTags x.tag then w.operatorError .noRoom else w.deleteOperatorRow p x := by
  unfold Work.rowDeleteKey
  rw [if_neg (by simp [allowed, band]), hp]
  simp only [hx]

end

/-! ### ROW DELETE at the station -/

section
variable {s : State} {i : StationId} {v : TemplateVersion} {c : Context}

/-- R90: `t` is `s` after the row `x` at position `p` has left the form of station `i`. -/
def OperatorRowLeft (s t : State) (i : StationId) (v : TemplateVersion) (c : Context) (p : Nat) (x : RowRec) : Prop :=
  ∃ c', t.station i = { s.station i with ctx := some c', paint := (t.station i).paint }
    ∧ c' = { c with
        adjusted := false, fixed := c'.fixed, rows := c.rows.eraseIdx (p - 1)
        first := min (max 1 c.first) (max 1 (c.rows.length - v.group.visible))
        editing := c.editing && decide (instAt v c c.cursor = none)
        deletedTags := c.deletedTags ++ x.tag.toList.filter (fun tag => tag ∉ c.deletedTags) }
    ∧ FixedKept v c.fixed c'.fixed ∧ t.freeRows = s.freeRows + 1
    ∧ t = { s with freeRows := t.freeRows, stations := s.stations.set i (t.station i) }

/-- R90: the end of an act that has deleted a row. -/
theorem Keying.closeWork_left (h : Keying s i v c) {p : Nat} (hlo : 1 ≤ p) (hhi : p ≤ c.rows.length) (x : RowRec) :
    OperatorRowLeft s (s.closeWork i ((s.keyWork i c).deleteOperatorRow p x)) i v c p x := by
  have whole : (s.openWork i c).returnRow.Edited ((s.keyWork i c).deleteOperatorRow p x) :=
    (s.keyWork_edited i c).returnRow.trans (Work.deleteOperatorRow_edited _ p x)
  have lock := (Work.deleteOperatorRow_lock (s.keyWork i c) p x).trans h.keyWork_lock
  obtain ⟨rows, tallied⟩ := (s.keyWork i c).deleteOperatorRow_tallied p x
  generalize (s.keyWork i c).deleteOperatorRow p x = done at *
  have erased : c.rows.take (p - 1) ++ c.rows.drop p = c.rows.eraseIdx (p - 1) := by
    rw [List.eraseIdx_eq_take_drop_succ, Nat.sub_add_cancel hlo]
  rw [h.keyWork_v, State.keyWork_c] at tallied
  dsimp only at tallied
  rw [State.keyWork_c] at rows
  rw [erased] at rows tallied
  have latched : done.latched = none := by rw [whole]; rfl
  have poolLow : done.poolLow = false := by rw [whole]; rfl
  have freeRows : done.freeRows = s.freeRows + 1 := by rw [whole]; rfl
  have station := h.closeWork_form whole.station lock
  have closed : s.closeWork i done
      = { s.setStation i { done.st with ctx := some done.c } with freeRows := s.freeRows + 1 } := by
    rw [State.closeWork_unlatched latched, poolLow, ← freeRows]
    rfl
  have window : clampFirst v.group (c.rows.eraseIdx (p - 1)).length c.first
      = min (max 1 c.first) (max 1 (c.rows.length - v.group.visible)) := by
    rw [List.length_eraseIdx_of_lt (by omega), clampFirst, windowBound, Nat.sub_add_cancel (hlo.trans hhi)]
  have outside : (!(instAt v c c.cursor).isSome) = decide (instAt v c c.cursor = none) := by
    cases instAt v c c.cursor <;> rfl
  refine ⟨done.c, ?_, ?_, tallied.fixedKept, ?_, ?_⟩
  · rw [station]
  · have form := tallied.others
    rw [rows, window, addDeletedTag_eq] at form
    rw [← outside]
    exact form
  · rw [closed]
  · rw [State.closeWork_station, if_pos rfl, closed]
    rfl

section
variable (h : Keying s i v c)
include h

theorem Keying.rowInsert_elsewhere (refused : v.group.insertAllowed = false ∨ ¬InBand v.group c.cursor.row) :
    KeyRefused s (State.deliverKey i s 0x9A) i .isProtected { c with adjusted := false } := by
  refine h.refused (key := .rowInsert) rfl (Work.rowInsertKey_elsewhere _ ?_)
  rwa [h.keyWork_v, State.keyWork_c, isBandRow_eq_false]

theorem Keying.rowDelete_elsewhere (refused : v.group.deleteAllowed = false ∨ ¬InBand v.group c.cursor.row
    ∨ ¬(1 ≤ shownRow v c ∧ shownRow v c ≤ c.rows.length)) :
    KeyRefused s (State.deliverKey i s 0x9B) i .isProtected { c with adjusted := false } := by
  refine h.refused (key := .rowDelete) rfl (Work.rowDeleteKey_elsewhere _ ?_)
  rw [Work.cursorSlot, h.keyWork_v, State.keyWork_c, isBandRow_eq_false]
  refine refused.imp_right fun refused => ?_
  by_cases band : InBand v.group c.cursor.row
  · exact .inr ((slotRow_cursor band).trans (if_neg (refused.resolve_left (not_not.mpr band))))
  · exact .inl band

/-- R89: where ROW DELETE is allowed, a full deleted-tag list alone stops it. -/
theorem Keying.rowDelete_occupied (allowed : v.group.deleteAllowed = true) (band : InBand v.group c.cursor.row)
    (occupied : 1 ≤ shownRow v c ∧ shownRow v c ≤ c.rows.length) {x : RowRec}
    (hx : c.rows[shownRow v c - 1]? = some x) : (s.keyWork i c).applyDecoded .rowDelete =
      if deletedTagBlocked c.deletedTags x.tag then (s.keyWork i c).operatorError .noRoom
      else (s.keyWork i c).deleteOperatorRow (shownRow v c) x := by
  have form := State.keyWork_c (s := s) (i := i) (c := c)
  have row : (s.keyWork i c).c.row? (shownRow v c) = some x := by
    rw [form]
    exact Context.row?_eq_some.mpr ⟨occupied.1, hx⟩
  have slot : (s.keyWork i c).c.slotRow (s.keyWork i c).cursorSlot = some (shownRow v c) := by
    rw [Work.cursorSlot, h.keyWork_v, form]
    exact (slotRow_cursor band).trans (if_pos occupied)
  rw [Work.applyDecoded, Work.rowDeleteKey_occupied (by rw [h.keyWork_v, allowed]) ?_ slot row, form]
  rw [h.keyWork_v, form]
  exact isBandRow_eq_true.mpr band

end

end

/-- Settles O48: the refusals in their order, the row that joins behind a passed exit, and the row that leaves. -/
theorem operatorRowsJoinAndLeave : Obligations.OperatorRowsJoinAndLeave := by
  intro s i v c h onBand n shown occupied c0
  refine ⟨?_, ?_⟩
  · intro t refused p fresh col joins
    have column : newRowCol v = col := by
      simp only [newRowCol, col, firstOpenCol_eq]
      cases v.rowDefs.find? fun d => !d.prot <;> cases v.rowDefs.head? <;> rfl
    have joined : ∀ {w : Work} {l : List (Nat × Nat)}, v.group.insertAllowed = true → onBand →
        n < v.group.maxRows → 0 < s.freeRows → (s.keyWork i c).exitField false = .passed w l → joins w.c :=
      fun allowed band room free passed => by
        have joined := h.rowInsert_joins allowed band room free passed
        rw [column] at joined
        exact joined
    refine ⟨h.rowInsert_elsewhere, h.rowInsert_noRoom, fun allowed band room free =>
      ⟨fun idle => ?_, fun u hu he => ⟨fun code hx => h.rowInsert_fails allowed band room free hu he hx,
        fun y hy => ?_⟩⟩⟩
    · have joined := joined allowed band room free (Work.exitField_idle (h.idle idle) false)
      rwa [State.keyWork_c] at joined
    · have editing := h.inEdit hu he
      obtain ⟨w, passed, -, -, form⟩ := Work.exitField_ok editing.workUnder editing.editing editing.adjusted hy
      have joined := joined allowed band room free passed
      rwa [form, State.keyWork_c] at joined
  · refine ⟨h.rowDelete_elsewhere, fun x allowed band occupied hx => ⟨fun unlisted full => ?_, fun room => ?_⟩⟩
    · have applied := h.rowDelete_occupied allowed band occupied hx
      rw [if_pos ((deletedTagBlocked_iff _ _).mpr ⟨unlisted, full⟩)] at applied
      exact h.refused rfl applied
    · have applied := h.rowDelete_occupied allowed band occupied hx
      rw [if_neg ((deletedTagBlocked_iff _ _).not.mpr fun ⟨unlisted, full⟩ =>
        room.elim (· unlisted) (Nat.not_lt.mpr full))] at applied
      have left := h.closeWork_left (p := shownRow v c) occupied.1 occupied.2 x
      rwa [← applied, ← h.deliverKey (k := 0x9B) rfl] at left

end Sys2Proof.Machine

/-! PROOFS. The numbers of a form (R94, R95, R107): a computation depends on the committed values of its operands, and
done again it changes nothing; which instances show their value and which derived ones are current; and what the
computations of R94 make current. -/

namespace Sys2Proof.Machine

/-! ### What a computation depends on -/

/-- The committed value of the instance a reference names. -/
def Context.valueAt (c : Context) (q : InstRef) : Option Int := (c.inst? q).bind FieldInst.value

theorem rowValue_eq_valueAt (v : TemplateVersion) (c : Context) (p id : Nat) :
    rowValue v c p id = (rowIndex v id).bind fun j => c.valueAt (.row p j) := rfl

theorem rowValue_congr_values {v : TemplateVersion} {c c' : Context} {p p' id : Nat}
    (h : ∀ j, rowIndex v id = some j → c'.valueAt (.row p' j) = c.valueAt (.row p j)) :
    rowValue v c' p' id = rowValue v c p id := by
  simp only [rowValue_eq_valueAt]
  exact Option.bind_congr h

/-- R96: a computation depends on the committed values of its operands and the number of rows alone. -/
theorem computed_congr_values {v : TemplateVersion} {c c' : Context} {p : Nat} {d : FieldDef}
    (hn : c'.rows.length = c.rows.length) (h : ∀ q, Reads v d p q → c'.valueAt q = c.valueAt q) (x : FieldInst) :
    computed v c' p d x = computed v c p d x := by
  unfold computed
  unfold Reads at h
  split
  · rename_i a b part hk
    rw [hk] at h
    rw [rowValue_congr_values fun j hj => h _ ⟨j, .inl hj, rfl⟩,
      rowValue_congr_values fun j hj => h _ ⟨j, .inr hj, rfl⟩]
  · rename_i source part hk
    rw [hk] at h
    have values : (fun k => rowValue v c' (k + 1) source) = fun k => rowValue v c (k + 1) source :=
      funext fun k => rowValue_congr_values fun j hj => h _ ⟨k, j, hj, rfl⟩
    rw [hn, values]
  · rfl

/-- R98: what a computation in a row makes of an instance goes with the row's values to another place. -/
theorem computed_moved {v : TemplateVersion} {c c' : Context} {p p' : Nat} {d : FieldDef} (hd : isSum d = false)
    (h : ∀ j, c'.valueAt (.row p' j) = c.valueAt (.row p j)) (x : FieldInst) :
    computed v c' p' d x = computed v c p d x := by
  unfold computed
  split
  · rw [rowValue_congr_values fun j _ => h j, rowValue_congr_values fun j _ => h j]
  · rename_i hk
    simp [isSum, hk] at hd
  · rfl

/-- R106: a result is fitted to a field but once; HOLD keeps what it kept. -/
theorem fitResult_idem (f : NumForm) (o : Nat) (a : Accumulator) (x : FieldInst) :
    fitResult f o a (fitResult f o a x) = fitResult f o a x := by
  unfold fitResult
  split
  · split <;> rfl
  · rfl

/-- R98 to R106: the three things that a computation can make of an instance. -/
theorem computed_cases (v : TemplateVersion) (c : Context) (p : Nat) (d : FieldDef) :
    (∀ x, computed v c p d x = x) ∨ (∀ x, computed v c p d x = absentResult (numForm d) x)
      ∨ ∃ o a, ∀ x, computed v c p d x = fitResult (numForm d) o a x := by
  unfold computed
  split
  · split
    · exact .inr (.inr ⟨_, _, fun _ => rfl⟩)
    · exact .inr (.inl fun _ => rfl)
  · exact .inr (.inr ⟨_, _, fun _ => rfl⟩)
  · exact .inl fun _ => rfl

/-- R94: a computation done again changes nothing. -/
theorem computed_idem (v : TemplateVersion) (c : Context) (p : Nat) (d : FieldDef) (x : FieldInst) :
    computed v c p d (computed v c p d x) = computed v c p d x := by
  rcases computed_cases v c p d with h | h | ⟨o, a, h⟩
  · simp only [h]
  · simp only [h, absentResult]
  · simp only [h, fitResult_idem]

/-- R117: a computation does not read the modified flag. -/
theorem computed_withModified (v : TemplateVersion) (c : Context) (p : Nat) (d : FieldDef) (x : FieldInst) (b : Bool) :
    computed v c p d { x with modified := b } = { computed v c p d x with modified := b } := by
  rcases computed_cases v c p d with h | h | ⟨o, a, h⟩
  · simp only [h]
  · simp only [h, absentResult]
  · simp only [h, fitResult]
    split
    · split <;> rfl
    · rfl

/-- Derived definitions alone are computed. -/
theorem Reads.derived {v : TemplateVersion} {d : FieldDef} {p : Nat} {q : InstRef} (h : Reads v d p q) :
    isDerived d = true := by
  unfold Reads at h
  unfold isDerived
  split at h <;> simp_all

/-- No computation reads a FIXED instance (R7). -/
theorem not_reads_fixed {v : TemplateVersion} {d : FieldDef} {p i : Nat} : ¬Reads v d p (.fixed i) := by
  unfold Reads
  split
  · rintro ⟨_, -, ⟨⟩⟩
  · rintro ⟨_, _, -, ⟨⟩⟩
  · exact id

/-- R7: on a sound version a ROW instance is computed from entered instances of its own row. -/
theorem SoundVersion.row_reads {v : TemplateVersion} (hv : SoundVersion v) {p j : Nat} {d : FieldDef}
    (hd : v.rowDefs[j]? = some d) {q : InstRef} (hq : Reads v d p q) :
    ∃ k, q = .row p k ∧ ∀ e, v.rowDefs[k]? = some e → isDerived e = false := by
  have member := List.mem_of_getElem? hd
  obtain ⟨-, -, kind, -⟩ := hv.entries.fields d (List.mem_append_right _ member)
  unfold Reads at hq
  split at hq
  · rename_i a b part hk
    rw [SoundKind, hk] at kind
    obtain ⟨-, -, -, -, -, -, -, namesA, namesB⟩ := kind
    obtain ⟨k, hk, rfl⟩ := hq
    refine ⟨k, rfl, fun e he => Bool.eq_false_of_not_eq_true fun derived => ?_⟩
    have product := hv.row_derived (List.mem_of_getElem? he) derived
    have entered : isProduct e = false :=
      hk.elim (fun h => hv.operand_entered namesA h he) (fun h => hv.operand_entered namesB h he)
    rw [product] at entered
    cases entered
  · rename_i hk
    have region := hv.rowRegion d member
    rw [SoundKind, hk] at kind
    obtain ⟨-, -, -, -, fixedRegion, -⟩ := kind
    rw [region] at fixedRegion
    cases fixedRegion
  · exact hq.elim

/-! ### Derived instances that are current (R95) -/

/-- R95: the instance a reference names is as a computation now would leave it. -/
def CurrentAt (v : TemplateVersion) (c : Context) (q : InstRef) : Prop :=
  ∀ d x, v.defOf q = some d → c.inst? q = some x → computed v c q.position d x = x

section
variable {v : TemplateVersion} {c c' : Context} {q : InstRef}

theorem CurrentAt.of_not_derived (h : ∀ d, v.defOf q = some d → isDerived d = false) : CurrentAt v c q :=
  fun d x hd _ => computed_of_not_derived (h d hd) x

/-- R96: an instance stays current while its operands keep their committed values. -/
theorem CurrentAt.of_values (h : CurrentAt v c q) (hn : c'.rows.length = c.rows.length)
    (hq : c'.inst? q = c.inst? q)
    (hr : ∀ d, v.defOf q = some d → ∀ r, Reads v d q.position r → c'.valueAt r = c.valueAt r) : CurrentAt v c' q :=
  fun d x hd hx => (computed_congr_values hn (hr d hd) x).trans (h d x hd (hq ▸ hx))

end

section
variable {w : Work} {q r : InstRef}

theorem Work.compute_current_self (h : ∀ d, w.v.defOf q = some d → ¬Reads w.v d q.position q) :
    CurrentAt w.v (w.compute q).c q := by
  intro d x hd hx
  rw [Work.compute_inst_self hd] at hx
  obtain ⟨y, -, rfl⟩ := Option.map_eq_some_iff.mp hx
  have same := computed_congr (v := w.v) (c := w.c) (c' := (w.compute q).c) (p := q.position) (d := d)
    (w.compute_frame q).rows fun r hr => Work.compute_inst_ne fun e => h d hd (e ▸ hr)
  rw [same, computed_idem]

theorem Work.compute_current_other (hq : q ≠ r) (h : ∀ d, w.v.defOf q = some d → ¬Reads w.v d q.position r)
    (hc : CurrentAt w.v w.c q) : CurrentAt w.v (w.compute r).c q :=
  hc.of_values (w.compute_frame r).rows (Work.compute_inst_ne hq) fun d hd a ha => by
    have other : a ≠ r := fun e => h d hd (by rwa [e] at ha)
    rw [Context.valueAt, Context.valueAt, Work.compute_inst_ne other]

/-- R94: computations of instances that `q` does not read leave it current, and make it current if it is one of them. -/
theorem Work.computeAll_current {l : List InstRef} (w : Work)
    (h : ∀ r ∈ l, ∀ d, w.v.defOf q = some d → ¬Reads w.v d q.position r) (hq : q ∈ l ∨ CurrentAt w.v w.c q) :
    CurrentAt w.v (l.foldl Work.compute w).c q := by
  induction l generalizing w with
  | nil => exact hq.resolve_left (List.not_mem_nil)
  | cons r l ih =>
    obtain ⟨first, rest⟩ := List.forall_mem_cons.mp h
    have version : (w.compute r).v = w.v := (w.compute_keeps r).version
    rw [List.foldl_cons, ← version]
    refine ih (w.compute r) (version ▸ rest) ?_
    rw [version]
    rcases eq_or_ne q r with rfl | hne
    · exact .inr (Work.compute_current_self first)
    · refine hq.imp (fun hm => (List.mem_cons.mp hm).resolve_left hne) fun hc => ?_
      exact Work.compute_current_other hne first hc

end

/-! ### What the occasions of R94 make current -/

/-- R94: the instances that are computed from one of the row instances `l`. -/
def Touched (v : TemplateVersion) (l : List (Nat × Nat)) (q : InstRef) : Prop :=
  ∃ d, v.defOf q = some d ∧ ∃ a ∈ l, Reads v d q.position (.row a.1 a.2)

theorem not_touched_nil {v : TemplateVersion} {q : InstRef} : ¬Touched v [] q := by
  rintro ⟨_, -, _, ⟨⟩, -⟩

theorem Touched.mono {v : TemplateVersion} {l l' : List (Nat × Nat)} {q : InstRef} (h : Touched v l q) (hl : l ⊆ l') :
    Touched v l' q := by
  obtain ⟨d, hd, a, ha, hr⟩ := h
  exact ⟨d, hd, a, hl ha, hr⟩

theorem rowFieldId_of_rowIndex {v : TemplateVersion} {id j : Nat} (h : rowIndex v id = some j) :
    rowFieldId v j = id := by
  obtain ⟨hj, found, -⟩ := List.findIdx?_eq_some_iff_getElem.mp h
  simp only [rowFieldId, List.getElem?_eq_getElem hj]
  exact eq_of_beq found

theorem Context.inst?_row_range {c : Context} {p j : Nat} {x : FieldInst} (h : c.inst? (.row p j) = some x) :
    1 ≤ p ∧ p ≤ c.rows.length := by
  obtain ⟨row, hrow, -⟩ := Option.bind_eq_some_iff.mp h
  obtain ⟨hp, hrow⟩ := Context.row?_eq_some.mp hrow
  have := (List.getElem?_eq_some_iff.mp hrow).1
  omega

/-- R94: the PRODUCT instances that a change of the row instances `l` calls for, on a form of `n` rows. -/
def productTargets (v : TemplateVersion) (n : Nat) (l : List (Nat × Nat)) : List (Nat × Nat) :=
  (List.range n).flatMap fun k =>
    (pick v.rowDefs (isProductOf ((l.filter fun r => r.1 == k + 1).map fun r => rowFieldId v r.2))).map fun j =>
      (k + 1, j)

theorem Work.computeProductsOf_eq (w : Work) (l : List (Nat × Nat)) : w.computeProductsOf l
    = (productTargets w.v w.c.rows.length l).foldl Work.computeProduct (w, l.map fun r => rowFieldId w.v r.2) := rfl

theorem Work.computeProducts_fst (l : List (Nat × Nat)) (p : Work × List Nat) : (l.foldl Work.computeProduct p).1
    = (l.map fun r => InstRef.row r.1 r.2).foldl Work.compute p.1 := by
  rw [List.foldl_map]
  exact (List.foldl_hom Prod.fst fun _ _ => rfl).symm

theorem Work.computeSumsOf_eq (w : Work) (ids : List Nat) :
    w.computeSumsOf ids = ((pick w.v.fixed (isSumOf ids)).map .fixed).foldl Work.compute w := List.foldl_map.symm

theorem Work.computeAllSums_eq (w : Work) :
    w.computeAllSums = ((pick w.v.fixed isSum).map .fixed).foldl Work.compute w := List.foldl_map.symm

theorem Work.computeRow_eq (w : Work) (p : Nat) :
    w.computeRow p = ((pick w.v.rowDefs isProduct).map (.row p)).foldl Work.compute w := List.foldl_map.symm

/-- R94: a change of operands calls for PRODUCT instances alone. -/
theorem derived_of_mem_productTargets {v : TemplateVersion} {n : Nat} {l : List (Nat × Nat)} {a : Nat × Nat}
    (h : a ∈ productTargets v n l) : ∃ e, v.rowDefs[a.2]? = some e ∧ isDerived e = true := by
  obtain ⟨_, -, hmap⟩ := List.mem_flatMap.mp h
  obtain ⟨_, hpick, rfl⟩ := List.mem_map.mp hmap
  obtain ⟨e, he, product⟩ := mem_pick.mp hpick
  refine ⟨e, he, ?_⟩
  unfold isProductOf at product
  unfold isDerived
  split at product <;> simp_all

/-- R94: each PRODUCT computed from a changed operand is among those that the change calls for. -/
theorem SoundVersion.mem_productTargets {v : TemplateVersion} (hv : SoundVersion v) {l : List (Nat × Nat)} {n p j : Nat}
    (ht : Touched v l (.row p j)) (hlo : 1 ≤ p) (hhi : p ≤ n) : (p, j) ∈ productTargets v n l := by
  obtain ⟨d, hd, ⟨p', k⟩, ha, hr⟩ := ht
  obtain ⟨part, a, b, shown, kind⟩ := isProduct_iff.mp (hv.row_derived (List.mem_of_getElem? hd) hr.derived)
  rw [Reads, kind] at hr
  obtain ⟨_, operand, ⟨⟩⟩ := hr
  refine List.mem_flatMap.mpr ⟨p - 1, List.mem_range.mpr (by omega), ?_⟩
  rw [Nat.sub_add_cancel hlo]
  refine List.mem_map.mpr ⟨j, mem_pick.mpr ⟨d, hd, ?_⟩, rfl⟩
  have changed : ∀ {id}, rowIndex v id = some k → id ∈ (l.filter fun r => r.1 == p).map fun r => rowFieldId v r.2 :=
    fun index => List.mem_map.mpr
      ⟨(p, k), List.mem_filter.mpr ⟨ha, beq_self_eq_true p⟩, rowFieldId_of_rowIndex index⟩
  simp only [isProductOf, kind, Bool.or_eq_true, List.contains_iff_mem]
  exact operand.imp changed changed

/-- R94: the PRODUCT instances that a change of operands calls for are current, and the others stay so. -/
theorem Work.computeProductsOf_current {w : Work} (hv : SoundVersion w.v) {l : List (Nat × Nat)} {p j : Nat}
    (h : ¬Touched w.v l (.row p j) → CurrentAt w.v w.c (.row p j)) :
    CurrentAt w.v (w.computeProductsOf l).1.c (.row p j) := by
  intro d x hd hx
  obtain ⟨hlo, hhi⟩ := Context.inst?_row_range hx
  rw [(Tallied.computeProductsOf w l).2.rows] at hhi
  revert d x
  change CurrentAt w.v (w.computeProductsOf l).1.c (.row p j)
  rw [Work.computeProductsOf_eq, Work.computeProducts_fst]
  refine Work.computeAll_current w (fun r hr d hd hreads => ?_) ?_
  · obtain ⟨k, rfl, entered⟩ := hv.row_reads hd hreads
    obtain ⟨_, target, ⟨⟩⟩ := List.mem_map.mp hr
    obtain ⟨e, he, derived⟩ := derived_of_mem_productTargets target
    rw [entered e he] at derived
    cases derived
  · by_cases ht : Touched w.v l (.row p j)
    · exact .inl (List.mem_map.mpr ⟨(p, j), hv.mem_productTargets ht hlo hhi, rfl⟩)
    · exact .inr (h ht)

/-- R94: every field whose committed value changes is among those named to the SUMS. -/
theorem Work.computeProductsOf_named (w : Work) (l : List (Nat × Nat)) :
    (∀ a ∈ l, rowFieldId w.v a.2 ∈ (w.computeProductsOf l).2)
      ∧ ∀ p j, rowFieldId w.v j ∉ (w.computeProductsOf l).2 →
        (w.computeProductsOf l).1.c.valueAt (.row p j) = w.c.valueAt (.row p j) := by
  rw [Work.computeProductsOf_eq]
  refine (foldl_keeps (P := fun s : Work × List Nat => s.1.v = w.v ∧ (∀ a ∈ l, rowFieldId w.v a.2 ∈ s.2)
    ∧ ∀ p j, rowFieldId w.v j ∉ s.2 → s.1.c.valueAt (.row p j) = w.c.valueAt (.row p j))
    (fun s r ⟨version, named, same⟩ => ?_) _ ⟨rfl, fun a ha => List.mem_map_of_mem ha, fun _ _ _ => rfl⟩).2
  have kept : (s.1.compute (.row r.1 r.2)).v = w.v := (s.1.compute_keeps _).version.trans version
  simp only [Work.computeProduct, kept]
  split
  · rename_i unchanged
    refine ⟨trivial, named, fun p j hj => ?_⟩
    rcases eq_or_ne (InstRef.row p j) (.row r.1 r.2) with e | hne
    · rw [← same p j hj, e]
      exact unchanged.symm
    · rw [← same p j hj, Context.valueAt, Work.compute_inst_ne hne]
      rfl
  · refine ⟨trivial, fun a ha => List.mem_append_left _ (named a ha), fun p j hj => ?_⟩
    rw [List.mem_append, List.mem_singleton, not_or] at hj
    have other : InstRef.row p j ≠ .row r.1 r.2 := by
      rintro ⟨⟩
      exact hj.2 rfl
    rw [← same p j hj.1, Context.valueAt, Work.compute_inst_ne other]
    rfl

/-- R94, R95: a tally makes every derived instance current that is computed from a changed value. -/
theorem Work.tally_current {w : Work} (hv : SoundVersion w.v) {l : List (Nat × Nat)}
    (h : ∀ q, ¬Touched w.v l q → CurrentAt w.v w.c q) (q : InstRef) : CurrentAt w.v (w.tally l).c q := by
  have version : (w.computeProductsOf l).1.v = w.v := (w.computeProductsOf_keeps l).version
  change CurrentAt w.v ((w.computeProductsOf l).1.computeSumsOf (w.computeProductsOf l).2).c q
  rw [Work.computeSumsOf_eq, ← version]
  refine Work.computeAll_current _ (fun r hr d _ => ?_) ?_
  · obtain ⟨_, -, rfl⟩ := List.mem_map.mp hr
    exact not_reads_fixed
  rw [version]
  cases q with
  | row p j => exact .inr (Work.computeProductsOf_current hv (h _))
  | fixed i =>
    by_cases called : i ∈ pick w.v.fixed (isSumOf (w.computeProductsOf l).2)
    · exact .inl (List.mem_map_of_mem called)
    obtain ⟨named, same⟩ := w.computeProductsOf_named l
    have tallied := (Tallied.computeProductsOf w l).2
    have unnamed : ∀ d, w.v.fixed[i]? = some d → ∀ k j, Reads w.v d 0 (.row k j) →
        rowFieldId w.v j ∉ (w.computeProductsOf l).2 := fun d hd k j hr hm => by
      refine called (mem_pick.mpr ⟨d, hd, ?_⟩)
      obtain ⟨part, source, shown, kind⟩ := isSum_iff.mp (hv.fixed_derived (List.mem_of_getElem? hd) hr.derived)
      rw [Reads, kind] at hr
      obtain ⟨_, _, index, ⟨⟩⟩ := hr
      simp only [isSumOf, kind, List.contains_iff_mem]
      exact rowFieldId_of_rowIndex index ▸ hm
    have untouched : ¬Touched w.v l (.fixed i) := fun ⟨d, hd, a, ha, hr⟩ => unnamed d hd _ _ hr (named a ha)
    refine .inr ((h _ untouched).of_values tallied.rows ?_ fun d hd r hr => ?_)
    · rw [Work.computeProductsOf_eq, Work.computeProducts_fst]
      refine Work.computeAll_inst_of_not_mem (fun hm => ?_) w
      obtain ⟨_, -, ⟨⟩⟩ := List.mem_map.mp hm
    · cases r with
      | fixed _ => exact (not_reads_fixed hr).elim
      | row k j => exact same k j (unnamed d hd k j hr)

/-- R94: with every SUM computed, a form whose PRODUCTS are current is current. -/
theorem Work.computeAllSums_current {w : Work} (hv : SoundVersion w.v)
    (h : ∀ p j, CurrentAt w.v w.c (.row p j)) (q : InstRef) : CurrentAt w.v w.computeAllSums.c q := by
  rw [Work.computeAllSums_eq]
  refine Work.computeAll_current w (fun r hr d _ => ?_) ?_
  · obtain ⟨_, -, rfl⟩ := List.mem_map.mp hr
    exact not_reads_fixed
  cases q with
  | row p j => exact .inr (h p j)
  | fixed i =>
    by_cases sum : i ∈ pick w.v.fixed isSum
    · exact .inl (List.mem_map_of_mem sum)
    · refine .inr (.of_not_derived fun d hd => Bool.eq_false_of_not_eq_true fun derived => sum ?_)
      exact mem_pick.mpr ⟨d, hd, hv.fixed_derived (List.mem_of_getElem? hd) derived⟩

/-- R94: with the PRODUCTS of a row computed, that row is current, and the others stay so. -/
theorem Work.computeRow_current {w : Work} (hv : SoundVersion w.v) {p q j : Nat}
    (h : q ≠ p → CurrentAt w.v w.c (.row q j)) : CurrentAt w.v (w.computeRow p).c (.row q j) := by
  rw [Work.computeRow_eq]
  refine Work.computeAll_current w (fun r hr d hd hreads => ?_) ?_
  · obtain ⟨k, rfl, entered⟩ := hv.row_reads hd hreads
    obtain ⟨_, hpick, ⟨⟩⟩ := List.mem_map.mp hr
    obtain ⟨e, he, product⟩ := mem_pick.mp hpick
    obtain ⟨_, _, _, _, kind⟩ := isProduct_iff.mp product
    have operand := entered e he
    simp [isDerived, kind] at operand
  · by_cases here : q = p ∧ j ∈ pick w.v.rowDefs isProduct
    · exact .inl (List.mem_map.mpr ⟨j, here.2, by rw [here.1]⟩)
    · refine .inr ?_
      by_cases hq : q = p
      · refine .of_not_derived fun d hd => Bool.eq_false_of_not_eq_true fun derived => here ⟨hq, ?_⟩
        exact mem_pick.mpr ⟨d, hd, hv.row_derived (List.mem_of_getElem? hd) derived⟩
      · exact h hq

end Sys2Proof.Machine

/-! PROOFS. The numbers of a form in an act (R94, R95, R107, R123): which instance may hide its value, and what an
operation of an act leaves of both. -/

namespace Sys2Proof.Machine

/-! ### Instances that show their value -/

/-- R107: a NUMERIC instance shows the display form of its value. -/
def ShowsValue (d : FieldDef) (x : FieldInst) : Prop :=
  isNumeric d = true → x.text = displayForm (numForm d) x.value

/-- R107, R123: the NUMERIC instances of a form show their values, but for an unprotected one at `e`. -/
def Shown (v : TemplateVersion) (c : Context) (e : Option InstRef) : Prop :=
  ∀ r d x, v.defOf r = some d → c.inst? r = some x → e = some r ∧ d.prot = false ∨ ShowsValue d x

theorem Shown.but {v : TemplateVersion} {c : Context} {e e' : Option InstRef} (h : Shown v c e)
    (he : ∀ r, e = some r → e' = some r) : Shown v c e' := fun r d x hd hx =>
  (h r d x hd hx).imp_left fun ⟨hr, hp⟩ => ⟨he r hr, hp⟩

theorem isDerived_of_isNumeric {d : FieldDef} (h : isNumeric d = true) : isDerived d = false := by
  cases hd : isDerived d with
  | false => rfl
  | true => rw [isNumeric_of_isDerived hd] at h; cases h

theorem Shown.tallied {v : TemplateVersion} {a b : Context} {e : Option InstRef} (h : Shown v a e) (t : Tallied v a b) :
    Shown v b e := fun r d x hd hx => by
  by_cases numeric : isNumeric d = true
  · exact h r d x hd (t.entered r d hd (isDerived_of_isNumeric numeric) ▸ hx)
  · exact .inr fun n => absurd n numeric

/-- R7: derived fields are protected. -/
theorem SoundVersion.derived_prot {v : TemplateVersion} (hv : SoundVersion v) {r : InstRef} {d : FieldDef}
    (hd : v.defOf r = some d) (derived : isDerived d = true) : d.prot = true := by
  have member : d ∈ v.fixed ++ v.rowDefs := by
    cases r with
    | fixed i => exact List.mem_append_left _ (List.mem_of_getElem? hd)
    | row p j => exact List.mem_append_right _ (List.mem_of_getElem? hd)
  obtain ⟨-, -, kind, -⟩ := hv.entries.fields d member
  unfold SoundKind at kind
  unfold isDerived at derived
  split at kind <;> simp_all

/-! ### The numbers of an act -/

/-- R95, R107, R123: on the form of the act, NUMERIC instances show their values, but for an unprotected one at `e`, and
derived instances are current, but for some of those in `stale`. -/
structure Work.Counted (w : Work) (e : Option InstRef) (stale : InstRef → Prop) : Prop where
  sound : SoundVersion w.v
  shown : Shown w.v w.c e
  current : ∀ q, ¬stale q → CurrentAt w.v w.c q

/-- R123: the reference of the instance an edit is made in. -/
def editedRef (v : TemplateVersion) (c : Context) : Option InstRef := if c.editing then instAt v c c.cursor else none

/-- The numbers of a form between acts. -/
abbrev Work.Current (w : Work) : Prop := w.Counted (editedRef w.v w.c) fun _ => False

theorem editedRef_eq_some {v : TemplateVersion} {c : Context} {r : InstRef} :
    editedRef v c = some r ↔ c.editing = true ∧ instAt v c c.cursor = some r := by
  unfold editedRef
  split <;> simp_all

section
variable {w w' : Work} {e e' : Option InstRef} {stale stale' : InstRef → Prop}

theorem Context.inst?_of_rows {c c' : Context} (hf : c'.fixed = c.fixed) (hr : c'.rows = c.rows) (q : InstRef) :
    c'.inst? q = c.inst? q := by
  unfold Context.inst? Context.row?
  rw [hf, hr]

/-- The numbers are of the instances and the number of rows alone. -/
theorem Work.Counted.of_same (h : w.Counted e stale) (hv : w'.v = w.v) (hn : w'.c.rows.length = w.c.rows.length)
    (hi : ∀ q, w'.c.inst? q = w.c.inst? q) : w'.Counted e stale := by
  refine ⟨hv ▸ h.sound, fun r d x hd hx => ?_, fun q hq => ?_⟩
  · exact h.shown r d x (hv ▸ hd) (hi r ▸ hx)
  · rw [hv]
    exact (h.current q hq).of_values hn (hi q) fun _ _ r _ => by rw [Context.valueAt, hi r]; rfl

theorem Work.Counted.of_insts (h : w.Counted e stale) (hv : w'.v = w.v) (hf : w'.c.fixed = w.c.fixed)
    (hr : w'.c.rows = w.c.rows) : w'.Counted e stale :=
  h.of_same hv (by rw [hr]) (Context.inst?_of_rows hf hr)

theorem Work.Counted.but (h : w.Counted e stale) (he : ∀ r, e = some r → e' = some r)
    (hs : ∀ q, stale q → stale' q) : w.Counted e' stale' :=
  ⟨h.sound, h.shown.but he, fun q hq => h.current q fun hn => hq (hs q hn)⟩

/-- With no instance hidden and none stale the act may end wherever its cursor is. -/
theorem Work.Counted.ends (h : w.Counted none fun _ => False) : w.Current := h.but nofun fun _ => id

/-- R94: the numbers once the Tally Unit has computed what a change calls for. -/
theorem Work.Counted.tally {l : List (Nat × Nat)} (h : w.Counted e (Touched w.v l)) :
    (w.tally l).Counted e fun _ => False := by
  have version := (w.tally_keeps l).version
  refine ⟨version ▸ h.sound, ?_, fun q _ => ?_⟩
  · rw [version]
    exact h.shown.tallied (Tallied.tally w l)
  · rw [version]
    exact Work.tally_current h.sound h.current q

theorem Work.putInst_inst_self {r : InstRef} {x : FieldInst} (hx : w.c.inst? r = some x) (x' : FieldInst) :
    (w.putInst r x').c.inst? r = some x' := by
  rw [Work.putInst_c, hx, Option.isSome_some, if_pos rfl]
  exact Context.inst?_written hx x'

theorem Work.putInst_inst_ne {r q : InstRef} (hq : q ≠ r) (x' : FieldInst) :
    (w.putInst r x').c.inst? q = w.c.inst? q := by
  rw [Work.putInst_c]
  split
  · rw [Context.inst?_modInst, if_neg hq]
  · rfl

/-- R117: a change of one instance: what calls for computations is the change of its committed value. -/
theorem Work.Counted.putInst {l : List (Nat × Nat)} (h : w.Counted e (Touched w.v l)) {r : InstRef} {d : FieldDef}
    {x x' : FieldInst} (hd : w.v.defOf r = some d) (hx : w.c.inst? r = some x) (derived : isDerived d = true → x' = x)
    (shows : e' = some r ∧ d.prot = false ∨ ShowsValue d x') (he : ∀ q, q ≠ r → e = some q → e' = some q) :
    (w.putInst r x').Counted e' (Touched w.v (l ++ if x'.value = x.value then [] else changedRow r)) := by
  have other : ∀ q, q ≠ r → (w.putInst r x').c.inst? q = w.c.inst? q := fun q hq => Work.putInst_inst_ne hq x'
  have self : (w.putInst r x').c.inst? r = some x' := Work.putInst_inst_self hx x'
  have version : (w.putInst r x').v = w.v := Work.putInst_v _ _ _
  refine ⟨version ▸ h.sound, ?_, fun q hq => ?_⟩
  · rw [version]
    intro q d' y hd' hy
    rcases eq_or_ne q r with rfl | hne
    · cases hd.symm.trans hd'
      cases self.symm.trans hy
      exact shows
    · exact (h.shown q d' y hd' (other q hne ▸ hy)).imp_left fun ⟨hq, hp⟩ => ⟨he q hne hq, hp⟩
  · rw [version]
    cases hder : (w.v.defOf q).any isDerived with
    | false =>
      refine .of_not_derived fun d' hd' => ?_
      rwa [hd'] at hder
    | true =>
      have same : (w.putInst r x').c.inst? q = w.c.inst? q := by
        rcases eq_or_ne q r with rfl | hne
        · rw [hd] at hder
          rw [self, hx, derived hder]
        · exact other q hne
      refine (h.current q fun ht => hq (ht.mono (List.subset_append_left _ _))).of_values
        (w.putInst_frame r x').rows same fun d' hd' a ha => ?_
      rcases eq_or_ne a r with rfl | hne
      · rw [Context.valueAt, Context.valueAt, self, hx]
        by_contra changed
        refine hq ⟨d', hd', ?_⟩
        rw [if_neg (show ¬x'.value = x.value from changed)]
        cases a with
        | fixed _ => exact (not_reads_fixed ha).elim
        | row p j => exact ⟨(p, j), List.mem_append_right _ (List.mem_singleton.mpr rfl), ha⟩
      · rw [Context.valueAt, other a hne]
        rfl

end

/-! ### The cursor within a field (R10, R50) -/

theorem findIdx?_other {l : List FieldDef} {P P' : FieldDef → Bool} {j : Nat} {d : FieldDef}
    (h : l.findIdx? P = some j) (hd : l[j]? = some d) (here : P' d = true)
    (before : ∀ (k : Nat) e, k < j → l[k]? = some e → P' e = false) : l.findIdx? P' = some j := by
  obtain ⟨hj, -, -⟩ := List.findIdx?_eq_some_iff_getElem.mp h
  obtain ⟨_, rfl⟩ := List.getElem?_eq_some_iff.mp hd
  refine List.findIdx?_eq_some_iff_getElem.mpr ⟨hj, here, fun k hk => ?_⟩
  rw [before k _ hk (List.getElem?_eq_getElem (hk.trans hj))]
  exact Bool.false_ne_true

/-- R10: of two fields of a screen row, the columns of the earlier end before those of the later begin. -/
theorem ends_before {d e : FieldDef}
    (h : Earlier d.row d.col e.row e.col ∧ (d.row = e.row → Apart d.col d.width e.col e.width))
    (hr : d.row = e.row) : d.col + d.width ≤ e.col := by
  obtain ⟨earlier, apart⟩ := h
  have := apart hr
  unfold Earlier at earlier
  unfold Apart at this
  omega

theorem pairwise_getElem? {α : Type} {R : α → α → Prop} {l : List α} (h : l.Pairwise R) {k j : Nat} {a b : α}
    (hk : k < j) (ha : l[k]? = some a) (hb : l[j]? = some b) : R a b := by
  obtain ⟨hk', rfl⟩ := List.getElem?_eq_some_iff.mp ha
  obtain ⟨hj', rfl⟩ := List.getElem?_eq_some_iff.mp hb
  exact List.pairwise_iff_getElem.mp h k j hk' hj' hk

/-- R10, R50: in all the columns of a field the cursor is in the same instance. -/
theorem SoundVersion.instAt_within {v : TemplateVersion} (hv : SoundVersion v) {c : Context} {q : Pos} {r : InstRef}
    {d : FieldDef} (h : instAt v c q = some r) (hd : v.defOf r = some d) {col : Nat} (hlo : d.col ≤ col)
    (hhi : col < d.col + d.width) : instAt v c ⟨q.row, col⟩ = some r := by
  have covered : coversCol d col = true := by simp [coversCol, hlo, hhi]
  have before : ∀ e : FieldDef, e.col + e.width ≤ d.col → coversCol e col = false := fun e he => by
    simp only [coversCol, Bool.and_eq_false_iff, decide_eq_false_iff_not]
    omega
  unfold instAt at h ⊢
  dsimp only
  split at h
  · rename_i band
    obtain ⟨p, hp, hj⟩ := Option.bind_eq_some_iff.mp h
    obtain ⟨j, found, rfl⟩ := Option.map_eq_some_iff.mp hj
    have same : v.rowDefs.findIdx? (fun d => coversCol d col) = some j := by
      refine findIdx?_other found hd covered fun k e hk he => before e ?_
      have row : ∀ {d : FieldDef}, d ∈ v.rowDefs → d.row = 0 := fun hm => by
        have := (hv.entries.fields _ (List.mem_append_right _ hm)).2.1
        rwa [SoundRow, if_pos (hv.rowRegion _ hm)] at this
      exact ends_before (pairwise_getElem? hv.entries.rowOrder hk he hd)
        ((row (List.mem_of_getElem? he)).trans (row (List.mem_of_getElem? hd)).symm)
    rw [if_pos band, hp, Option.bind_some, same]
    rfl
  · rename_i band
    obtain ⟨j, found, rfl⟩ := Option.map_eq_some_iff.mp h
    obtain ⟨hj, found', -⟩ := List.findIdx?_eq_some_iff_getElem.mp found
    obtain ⟨_, rfl⟩ := List.getElem?_eq_some_iff.mp hd
    have row := eq_of_beq (Bool.and_eq_true_iff.mp found').1
    have same : v.fixed.findIdx? (fun d => d.row == q.row && coversCol d col) = some j := by
      refine findIdx?_other found hd (by simp [row, covered]) fun k e hk he => ?_
      by_cases hr : e.row = q.row
      · have ends := ends_before (pairwise_getElem? hv.entries.fixedOrder hk he hd) (hr.trans row.symm)
        rw [before e ends, Bool.and_false]
      · simp [hr]
    rw [if_neg band, same]
    rfl

/-! ### Operations that change no instance -/

section
variable {w w' : Work} {u : Under}

/-- An operation that changes no more of the form than the notice and the mode keeps the numbers. -/
theorem Work.Current.of_form (h : w.Current) (hv : w'.v = w.v)
    (hc : w'.c = { w.c with insertMode := w'.c.insertMode, adjusted := w'.c.adjusted }) : w'.Current := by
  have edited : editedRef w'.v w'.c = editedRef w.v w.c := by rw [hv, hc]; rfl
  unfold Work.Current
  rw [edited]
  exact Work.Counted.of_insts h hv (by rw [hc]) (by rw [hc])

theorem Work.Current.operatorError (h : w.Current) (code : ErrorCode) : (w.operatorError code).Current :=
  h.of_form (Work.operatorError_keeps _ _).version (by simp)

theorem Work.Current.setAdjusted (h : w.Current) (b : Bool) : (w.setAdjusted b).Current :=
  h.of_form (Work.setAdjusted_v _ _) (by simp)

theorem Work.Current.setInsertMode (h : w.Current) (b : Bool) : (w.setInsertMode b).Current :=
  h.of_form (Work.setInsertMode_keeps _ _).version (by simp)

theorem Work.Current.alarm (h : w.Current) : w.alarm.Current := h.of_form rfl rfl

theorem Work.Current.latch (h : w.Current) (k : Byte) : (w.latch k).Current :=
  h.of_form (Work.latch_keeps _ _).version (by simp [Work.latch])

/-- R84, R86: a roll and a move that leave the cursor in the same instance. -/
theorem Work.Current.moved (h : w.Current) {f : Nat} {q : Pos}
    (stays : instAt w.v { w.c with first := f } q = instAt w.v w.c w.c.cursor) :
    ((w.setFirst f).moveCursor q).Current := by
  have form : ((w.setFirst f).moveCursor q).c = { w.c with first := f, cursor := q } := by simp
  have edited : editedRef w.v { w.c with first := f, cursor := q } = editedRef w.v w.c := by
    unfold editedRef
    rw [← stays]
    rfl
  have moved : ((w.setFirst f).moveCursor q).Counted (editedRef w.v w.c) fun _ => False :=
    Work.Counted.of_insts h (by simp) (by rw [form]) (by rw [form])
  unfold Work.Current
  rw [form, Work.moveCursor_v, Work.setFirst_v, edited]
  exact moved

theorem Work.Current.touched (h : w.Current) (l : List (Nat × Nat)) :
    w.Counted (editedRef w.v w.c) (Touched w.v l) := h.but (fun _ => id) fun _ => False.elim

theorem Tallied.editing {v : TemplateVersion} {a b : Context} (t : Tallied v a b) : b.editing = a.editing := by
  rw [t.others]

theorem editedRef_frame {v : TemplateVersion} {a b : Context} (h : SameFrame a b) (he : b.editing = a.editing) :
    editedRef v b = editedRef v a := by
  unfold editedRef
  rw [instAt_frame h, h.cursor, he]

theorem editedRef_tallied {v : TemplateVersion} {a b : Context} (t : Tallied v a b) : editedRef v b = editedRef v a :=
  editedRef_frame ⟨t.rows, by rw [t.others], by rw [t.others]⟩ t.editing

/-- R94, R95: the Tally Unit computes what a change calls for, and the act may end. -/
theorem Work.Counted.tally_ends {l : List (Nat × Nat)} (h : w.Counted (editedRef w.v w.c) (Touched w.v l)) :
    (w.tally l).Current := by
  unfold Work.Current
  rw [(Work.tally_keeps w l).version, editedRef_tallied (Tallied.tally w l)]
  exact h.tally

/-- Where a change calls for nothing, nothing is stale. -/
theorem Work.Counted.none_touched {e : Option InstRef} (h : w.Counted e (Touched w.v [])) :
    w.Counted e fun _ => False := h.but (fun _ => id) fun _ => not_touched_nil

/-! ### The field exit (R59, R63) -/

/-- R63: what a passed exit check decides shows its value. -/
theorem exitCheck_shows {d : FieldDef} {x : FieldInst} {negate : Bool} {y : Checked}
    (h : exitCheck d x negate = .ok y) : ShowsValue d { x with text := y.text, value := y.value } := by
  intro numeric
  obtain ⟨p, policy, kind⟩ := isNumeric_iff.mp numeric
  unfold exitCheck at h
  rw [kind] at h
  dsimp only at h ⊢
  split at h
  · cases h
  · rw [fillCheck_ok h]
  · split at h
    · cases h
    · rw [fillCheck_ok h]

/-- R62: an exit check leaves what is no NUMERIC instance as it is. -/
theorem exitCheck_same {d : FieldDef} (hd : isNumeric d = false) {x : FieldInst} {negate : Bool} {y : Checked}
    (h : exitCheck d x negate = .ok y) : { x with text := y.text, value := y.value } = x := by
  unfold exitCheck at h
  split at h
  · rename_i kind
    simp [isNumeric, kind] at hd
  · rw [fillCheck_ok h]

theorem Work.edited_under (hu : w.under = some u) {r : InstRef} (hr : editedRef w.v w.c = some r) : r = u.ref := by
  have at_cursor := (editedRef_eq_some.mp hr).2
  rw [(under_some hu).1] at at_cursor
  exact (Option.some.inj at_cursor).symm

/-- Where no exit is to be made, no instance hides its value. -/
theorem Work.Counted.idle {stale : InstRef → Prop} (h : w.Counted (editedRef w.v w.c) stale)
    (idle : w.c.editing = false ∨ w.under = none) : w.Counted none stale := by
  refine ⟨h.sound, fun r d x hd hx => .inr ((h.shown r d x hd hx).resolve_left fun hidden => ?_), h.current⟩
  obtain ⟨editing, at_cursor⟩ := editedRef_eq_some.mp hidden.1
  rcases idle with idle | idle
  · rw [editing] at idle; cases idle
  · simp [Work.under, Machine.under, at_cursor, hd, hx] at idle

theorem Work.exitField_inv {negate : Bool} {l : List (Nat × Nat)} (h : w.exitField negate = .passed w' l) :
    ((w.c.editing = false ∨ w.under = none) ∧ w' = w ∧ l = [])
      ∨ ∃ u y, w.under = some u ∧ w.c.editing = true ∧ exitCheck u.field u.inst negate = .ok y
        ∧ l = exitChanges u y ∧ w'.v = w.v
        ∧ w'.c.fixed = (w.putInst u.ref { u.inst with text := y.text, value := y.value }).c.fixed
        ∧ w'.c.rows = (w.putInst u.ref { u.inst with text := y.text, value := y.value }).c.rows := by
  unfold Work.exitField at h
  split at h
  · rename_i hu
    cases h
    exact .inl ⟨.inr hu, rfl, rfl⟩
  rename_i u hu
  split at h
  · rename_i he
    cases h
    exact .inl ⟨.inl (by simpa using he), rfl, rfl⟩
  rename_i he
  split at h
  · cases h
  · rename_i y hy
    cases h
    refine .inr ⟨u, y, hu, by simpa using he, hy, rfl, ?_, ?_, ?_⟩
    all_goals split <;> simp

/-- R63: a passed exit leaves no instance hidden, and stale what is computed from the value it changed. -/
theorem Work.Counted.exitField_passed {l : List (Nat × Nat)} (h : w.Counted (editedRef w.v w.c) (Touched w.v l))
    {negate : Bool} {changed : List (Nat × Nat)} (hx : w.exitField negate = .passed w' changed) :
    w'.Counted none (Touched w.v (l ++ changed)) := by
  rcases Work.exitField_inv hx with ⟨idle, rfl, rfl⟩ | ⟨u, y, hu, -, hy, rfl, hv, hf, hr⟩
  · rw [List.append_nil]
    exact h.idle idle
  · obtain ⟨-, defined, present⟩ := under_some hu
    refine Work.Counted.of_insts ?_ (hv.trans (Work.putInst_v w u.ref _).symm) hf hr
    exact h.putInst defined present (fun derived => exitCheck_same (isNumeric_of_isDerived derived) hy)
      (.inr (exitCheck_shows hy)) fun q hq he => absurd (Work.edited_under hu he) hq

/-- R63: a failed exit puts the cursor at the start of the field it is in. -/
theorem Work.Counted.exitField_failed {l : List (Nat × Nat)} (h : w.Counted (editedRef w.v w.c) (Touched w.v l))
    {negate : Bool} (hx : w.exitField negate = .failed w') :
    w'.v = w.v ∧ w'.Counted (editedRef w'.v w'.c) (Touched w.v l) := by
  unfold Work.exitField at hx
  split at hx
  · cases hx
  rename_i u hu
  split at hx
  · cases hx
  split at hx
  · rename_i code _
    cases hx
    obtain ⟨at_cursor, defined, -⟩ := under_some hu
    obtain ⟨start, -, -⟩ := instAt_spec at_cursor defined
    have width := (h.sound.good_of_defOf defined).width
    have version : ((w.moveCursor (fieldStart w.v w.c u.ref)).operatorError code).v = w.v :=
      (Work.operatorError_keeps _ _).version.trans (Work.moveCursor_v w _)
    refine ⟨version, ?_⟩
    have edited : editedRef w.v { w.c with cursor := fieldStart w.v w.c u.ref } = editedRef w.v w.c := by
      unfold editedRef
      change (if w.c.editing then instAt w.v w.c (fieldStart w.v w.c u.ref) else none) = _
      rw [start, at_cursor, h.sound.instAt_within at_cursor defined (Nat.le_refl _) (by omega)]
    rw [version, Work.operatorError_c, Work.moveCursor_c, edited]
    exact h.of_insts version (by simp) (by simp)
  · cases hx

/-- R63, R77: an exit with the computations that it and the key call for, and a move. -/
theorem Work.Counted.exitThenMove {l : List (Nat × Nat)} (h : w.Counted (editedRef w.v w.c) (Touched w.v l))
    {negate : Bool} (hl : l ≠ [] → ∀ w' changed, w.exitField negate = .passed w' changed → changed ⊆ l) (f : Nat)
    (q : Pos) : (w.exitThenMove true negate l f q).Current := by
  unfold Work.exitThenMove
  rw [if_pos rfl]
  split
  · rename_i w' hx
    obtain ⟨version, failed⟩ := h.exitField_failed hx
    rw [← version] at failed
    exact failed.tally_ends
  · rename_i w' changed hx
    have version := (Work.exitField_passed_keeps hx).version
    have passed := h.exitField_passed hx
    have called : w'.Counted none (Touched w'.v (if l.isEmpty then changed else l)) := by
      rw [version]
      refine passed.but (fun _ => id) fun q hq => hq.mono ?_
      cases l with
      | nil => exact List.Subset.refl _
      | cons a l => exact List.append_subset.mpr ⟨List.Subset.refl _, hl (List.cons_ne_nil _ _) w' changed hx⟩
    exact (called.tally.of_insts (by simp) (by simp) (by simp)).ends

theorem Work.Current.exitTo (h : w.Current) (negate : Bool) (f : Nat) (q : Pos) :
    (w.exitThenMove true negate [] f q).Current :=
  (h.touched []).exitThenMove (fun h => absurd rfl h) f q

theorem Work.Current.moveAsTab (h : w.Current) (negate : Bool) : (w.moveAsTab negate []).Current := h.exitTo _ _ _

/-! ### Cursor keys and rolls (R77 to R86) -/

theorem Work.Current.arrow (h : w.Current) (q : Pos) : (w.arrow q).Current := by
  unfold Work.arrow
  cases leaves : instAt w.v w.c q != instAt w.v w.c w.c.cursor with
  | true => exact h.exitTo _ _ _
  | false =>
    rw [Work.exitThenMove_without_exit]
    exact h.moved (bne_eq_false_iff_eq.mp leaves)

theorem Work.Current.rollTo (h : w.Current) (f : Nat) : (w.rollTo f).Current := by
  unfold Work.rollTo
  split
  · exact h
  cases band : isBandRow w.v.group w.c.cursor.row with
  | true => exact h.exitTo _ _ _
  | false =>
    rw [Work.exitThenMove_without_exit]
    refine h.moved ?_
    simp [instAt, band]

/-! ### Edits (R52 to R58, R65 to R67) -/

/-- R53, R56, R67: an edit of the unprotected instance under the cursor. -/
theorem Work.Current.edit (h : w.Current) (hu : w.under = some u) (hp : u.field.prot = false) (x : FieldInst) :
    ((w.putInst u.ref x).setEditing true).Counted
      (editedRef ((w.putInst u.ref x).setEditing true).v ((w.putInst u.ref x).setEditing true).c)
      (Touched w.v (if x.value = u.inst.value then [] else changedRow u.ref)) := by
  obtain ⟨at_cursor, defined, present⟩ := under_some hu
  have edited : editedRef ((w.putInst u.ref x).setEditing true).v ((w.putInst u.ref x).setEditing true).c
      = some u.ref := by
    have frame := w.putInst_frame u.ref x
    refine editedRef_eq_some.mpr ⟨rfl, ?_⟩
    rw [Work.setEditing_v, Work.putInst_v, ← at_cursor, ← instAt_frame frame, ← frame.cursor]
    rfl
  rw [edited]
  refine (Work.Counted.putInst (h.touched []) defined present (fun derived => ?_) (.inl ⟨rfl, hp⟩)
    fun q hq he => absurd (Work.edited_under hu he) hq).of_insts rfl rfl rfl
  have protectedField := h.sound.derived_prot defined derived
  rw [hp] at protectedField
  cases protectedField

theorem Work.Current.editText (h : w.Current) (hu : w.under = some u) (hp : u.field.prot = false) (t : Text) :
    (w.editText u t).Current := by
  have edited := h.edit hu hp { u.inst with text := t, modified := true }
  rw [if_pos rfl] at edited
  exact edited.but (fun _ => id) fun _ => not_touched_nil

theorem Work.openUnder_inv (h : w.openUnder = some u) : w.under = some u ∧ u.field.prot = false := by
  unfold Work.openUnder at h
  split at h
  · rename_i hu
    split at h <;> cases h
    rename_i hp
    exact ⟨hu, Bool.eq_false_of_not_eq_true hp⟩
  · cases h

theorem Work.Current.advance (h : w.Current) {r : InstRef} {d : FieldDef}
    (at_cursor : instAt w.v w.c w.c.cursor = some r) (hd : w.v.defOf r = some d) : (w.advance d).Current := by
  obtain ⟨-, left, -⟩ := instAt_spec at_cursor hd
  unfold Work.advance
  split
  · rename_i inside
    have moved := h.moved (f := w.c.first) (q := ⟨w.c.cursor.row, w.c.cursor.col + 1⟩)
      ((h.sound.instAt_within at_cursor hd (by omega) inside).trans at_cursor.symm)
    rwa [Work.setFirst, if_pos rfl] at moved
  split
  · exact h.moveAsTab false
  · exact h.exitTo _ _ _

theorem Work.Current.dataKey (h : w.Current) (ch : Byte) : (w.dataKey ch).Current := by
  unfold Work.dataKey
  split
  · exact h.operatorError _
  rename_i u hu
  split
  · exact h.operatorError _
  rename_i hp
  split
  · exact h.operatorError _
  split
  · exact h.operatorError _
  · obtain ⟨at_cursor, defined, -⟩ := under_some hu
    generalize typedText w.c.insertMode u.inst.text (u.offset w.c) ch = t
    have frame := w.putInst_frame u.ref { u.inst with text := t, modified := true }
    have version : (w.editText u t).v = w.v := (Work.editText_keeps w u t).version
    refine (h.editText hu (Bool.eq_false_of_not_eq_true hp) t).advance (r := u.ref) ?_ (version ▸ defined)
    rw [version, ← at_cursor, ← instAt_frame frame, ← frame.cursor]
    rfl

theorem Work.Current.deleteKey (h : w.Current) : w.deleteKey.Current := by
  unfold Work.deleteKey
  split
  · exact h.operatorError _
  · rename_i u hu
    obtain ⟨hu, hp⟩ := Work.openUnder_inv hu
    exact h.editText hu hp _

theorem Work.Current.eraseEofKey (h : w.Current) : w.eraseEofKey.Current := by
  unfold Work.eraseEofKey
  split
  · exact h.operatorError _
  · rename_i u hu
    obtain ⟨hu, hp⟩ := Work.openUnder_inv hu
    exact h.editText hu hp _

theorem Work.Current.fieldExitKey (h : w.Current) : w.fieldExitKey.Current := by
  unfold Work.fieldExitKey
  split
  · exact h.operatorError _
  · rename_i u hu
    obtain ⟨hu, hp⟩ := Work.openUnder_inv hu
    exact (h.editText hu hp _).moveAsTab _

theorem Work.Current.fieldMinusKey (h : w.Current) : w.fieldMinusKey.Current := by
  unfold Work.fieldMinusKey
  split
  · exact h.operatorError _
  rename_i u hu
  obtain ⟨hu, hp⟩ := Work.openUnder_inv hu
  split
  · exact (h.editText hu hp _).moveAsTab _
  · exact h.operatorError _

/-- R67: DUP, with the value it copies and the exit behind it. -/
theorem Work.Current.dupKey (h : w.Current) : w.dupKey.Current := by
  unfold Work.dupKey
  split
  · exact h.alarm
  rename_i u hu
  obtain ⟨hu, hp⟩ := Work.openUnder_inv hu
  split
  · exact h.alarm
  rename_i src _
  extract_lets value copied edited
  have counted := h.edit hu hp { u.inst with text := src.text, value := value, modified := true }
  have version : edited.v = w.v := Work.putInst_v _ _ _
  rw [← version] at counted
  refine counted.exitThenMove (fun hl w' changed hx => ?_) _ _
  have left : (if value = u.inst.value then [] else changedRow u.ref) = changedRow u.ref := by
    split
    · rename_i same
      simp [same] at hl
    · rfl
  dsimp only
  rw [left]
  rcases Work.exitField_inv hx with ⟨-, -, rfl⟩ | ⟨u', y, hu', -, -, rfl, -⟩
  · exact List.nil_subset _
  · have ref : u'.ref = u.ref := by
      have frame := w.putInst_frame u.ref { u.inst with text := src.text, value := value, modified := true }
      have at_cursor := (under_some hu').1
      rw [version, show edited.c.cursor = w.c.cursor from frame.cursor,
        show instAt w.v edited.c w.c.cursor = instAt w.v w.c w.c.cursor from instAt_frame frame _,
        (under_some hu).1] at at_cursor
      exact (Option.some.inj at_cursor).symm
    unfold exitChanges
    rw [ref]
    split
    · exact List.nil_subset _
    · exact List.Subset.refl _

end

end Sys2Proof.Machine

/-! PROOFS. Every keystroke leaves the numbers of the form as R95 and R107 have them: ERASE INPUT, the item lines with
their rows moved to other places, the attention keys. -/

namespace Sys2Proof.Machine

/-! ### ERASE INPUT (R58) -/

section
variable {w w' : Work} {e : Option InstRef} {stale : InstRef → Prop}

theorem erasedInst_shows (d : FieldDef) (x : FieldInst) : ShowsValue d (erasedInst d x) := fun numeric => by
  simp [erasedInst, numeric, displayForm]

/-- R58: the erasing of one instance leaves stale what is computed from it. -/
theorem Work.Counted.eraseInst {s : Work × List (Nat × Nat)} (h : s.1.Counted e (Touched s.1.v s.2)) (r : InstRef) :
    (Work.eraseInst s r).1.Counted e (Touched (Work.eraseInst s r).1.v (Work.eraseInst s r).2) := by
  unfold Work.eraseInst
  split
  · rename_i d x hd hx
    split
    · exact h
    · rename_i hp
      rw [Work.putInst_v]
      refine (h.putInst hd hx (fun derived => absurd (h.sound.derived_prot hd derived) hp)
        (.inr (erasedInst_shows d x)) fun _ _ => id).but (fun _ => id) fun q hq => hq.mono ?_
      split
      · rw [List.append_nil]
        exact List.Subset.refl _
      · exact List.Subset.refl _
  · exact h

theorem mem_allRefs_of_inst {v : TemplateVersion} {c : Context} {r : InstRef} {d : FieldDef} {x : FieldInst}
    (hd : v.defOf r = some d) (hx : c.inst? r = some x) : r ∈ allRefs v c := by
  rw [mem_allRefs]
  cases r with
  | fixed i => exact .inl ⟨i, (List.getElem?_eq_some_iff.mp hd).1, rfl⟩
  | row p j =>
    obtain ⟨hlo, hhi⟩ := Context.inst?_row_range hx
    exact .inr ⟨p - 1, j, by omega, (List.getElem?_eq_some_iff.mp hd).1, by rw [Nat.sub_add_cancel hlo]⟩

theorem Work.Current.eraseInputKey (h : w.Current) : w.eraseInputKey.Current := by
  obtain ⟨s, hs⟩ : ∃ s, (allRefs w.v w.c).foldl Work.eraseInst (w, []) = s := ⟨_, rfl⟩
  have key : w.eraseInputKey = ((s.1.setEditing false).moveCursor (homePos s.1.v s.1.c)).tally s.2 := by
    rw [← hs]
    rfl
  have counted : s.1.Counted (editedRef w.v w.c) (Touched s.1.v s.2) := by
    rw [← hs]
    exact foldl_keeps (P := fun s : Work × List (Nat × Nat) =>
      s.1.Counted (editedRef w.v w.c) (Touched s.1.v s.2)) (fun _ r hs => hs.eraseInst r) _ (h.touched [])
  have version : s.1.v = w.v := hs ▸ (Work.eraseAll_erased (allRefs w.v w.c) (w, [])).version
  have frame : SameFrame w.c s.1.c := hs ▸ (Work.eraseAll_erased (allRefs w.v w.c) (w, [])).frame
  have erased : s.1.Counted none (Touched s.1.v s.2) := by
    refine ⟨counted.sound, fun r d x hd hx => .inr ?_, counted.current⟩
    rcases counted.shown r d x hd hx with ⟨-, hp⟩ | shown
    · have member : r ∈ allRefs w.v w.c := by
        have := mem_allRefs_of_inst hd hx
        rwa [mem_allRefs, version, frame.rows, ← mem_allRefs] at this
      have inst := Work.eraseAll_inst (allRefs_nodup w.v w.c) (w, []) member
      rw [hs, hx] at inst
      obtain ⟨y, -, hy⟩ := Option.map_eq_some_iff.mp inst.symm
      rw [version] at hd
      simp only [erasedByInput, hd, hp, Bool.false_eq_true, if_false] at hy
      rw [← hy]
      exact erasedInst_shows d y
    · exact shown
  rw [key]
  refine (Work.Counted.tally ?_).ends
  rw [Work.moveCursor_v, Work.setEditing_v]
  exact erased.of_insts (by simp) (by simp) (by simp)

/-! ### Computations in a form with a row more or less (R94) -/

/-- Only the SUMS are stale. -/
def SumsStale (q : InstRef) : Prop :=
  match q with
  | .fixed _ => True
  | .row _ _ => False

/-- The SUMS and the rows at position `p` are stale, and in other rows some of those in `stale`. -/
def RowStale (p : Nat) (stale : InstRef → Prop) (q : InstRef) : Prop :=
  match q with
  | .fixed _ => True
  | .row q j => q = p ∨ stale (.row q j)

/-- Computations of derived instances hide no value. -/
theorem Work.Counted.tallied (h : w.Counted e stale) {stale' : InstRef → Prop} (hv : w'.v = w.v)
    (ht : Tallied w.v w.c w'.c) (hc : ∀ q, ¬stale' q → CurrentAt w.v w'.c q) : w'.Counted e stale' :=
  ⟨hv ▸ h.sound, hv ▸ h.shown.tallied ht, fun q hq => hv ▸ hc q hq⟩

theorem Work.Counted.computeAllSums (h : w.Counted e stale) (hs : ∀ q, stale q → SumsStale q) :
    w.computeAllSums.Counted e fun _ => False :=
  h.tallied (w.computeAllSums_keeps).version (Tallied.computeAllSums w) fun q _ =>
    Work.computeAllSums_current h.sound (fun _ _ => h.current _ fun hq => hs _ hq) q

theorem Work.Counted.computeRow {p : Nat} (h : w.Counted e (RowStale p stale)) :
    (w.computeRow p).Counted e fun q => SumsStale q ∨ stale q := by
  refine h.tallied (w.computeRow_keeps p).version (Tallied.computeRow w p) fun q hq => ?_
  cases q with
  | fixed i => exact absurd (.inl trivial) hq
  | row q j =>
    exact Work.computeRow_current h.sound fun hne => h.current _ fun hs => hq (.inr (hs.resolve_left hne))

theorem Work.Counted.computeProductsOf {l : List (Nat × Nat)}
    (h : w.Counted e fun q => SumsStale q ∨ Touched w.v l q) : (w.computeProductsOf l).1.Counted e SumsStale := by
  refine h.tallied (w.computeProductsOf_keeps l).version (Tallied.computeProductsOf w l).2 fun q hq => ?_
  cases q with
  | fixed i => exact absurd trivial hq
  | row q j => exact Work.computeProductsOf_current h.sound fun ht => h.current _ fun hs => ht (hs.resolve_left id)

/-! ### Rows at other places -/

/-- R98: a row instance stays current in a row that stands at another place. -/
theorem CurrentAt.moved {v : TemplateVersion} {c c' : Context} {p p' j : Nat} (hv : SoundVersion v)
    (h : CurrentAt v c (.row p j)) (hrow : ∀ k, c'.inst? (.row p' k) = c.inst? (.row p k)) :
    CurrentAt v c' (.row p' j) := by
  intro d x hd hx
  cases derived : isDerived d with
  | false => exact computed_of_not_derived derived x
  | true =>
    obtain ⟨_, _, _, _, kind⟩ := isProduct_iff.mp (hv.row_derived (List.mem_of_getElem? hd) derived)
    have here : computed v c p d x = x := h d x hd (hrow j ▸ hx)
    have values : ∀ k, c'.valueAt (.row p' k) = c.valueAt (.row p k) := fun k =>
      congrArg (Option.bind · FieldInst.value) (hrow k)
    exact (computed_moved (by simp [isSum, kind]) values x).trans here

/-- R98: what is computed in a row goes with the row to another place. -/
theorem Touched.moved {v : TemplateVersion} (hv : SoundVersion v) {l : List (Nat × Nat)} {p p' j : Nat}
    (h : Touched v l (.row p j)) (f : Nat × Nat → Nat × Nat) (hf : ∀ k, f (p, k) = (p', k)) :
    Touched v (l.map f) (.row p' j) := by
  obtain ⟨d, hd, ⟨q, k⟩, ha, hr⟩ := h
  obtain ⟨part, a, b, shown, kind⟩ := isProduct_iff.mp (hv.row_derived (List.mem_of_getElem? hd) hr.derived)
  rw [Reads, kind] at hr
  obtain ⟨_, operand, ⟨⟩⟩ := hr
  refine ⟨d, hd, (p', k), List.mem_map.mpr ⟨_, ha, hf k⟩, ?_⟩
  rw [Reads, kind]
  exact ⟨k, operand, rfl⟩

/-- R88, R119: the instances of a form with a row more, at position `p`. -/
theorem Context.inst?_inserted {c c' : Context} {p : Nat} {x : RowRec} (hlo : 1 ≤ p) (hhi : p ≤ c.rows.length + 1)
    (hr : c'.rows = c.rows.take (p - 1) ++ x :: c.rows.drop (p - 1)) (q j : Nat) :
    c'.inst? (.row q j)
      = if q < p then c.inst? (.row q j) else if q = p then x.insts[j]? else c.inst? (.row (q - 1) j) := by
  have row : c'.row? q = if q < p then c.row? q else if q = p then some x else c.row? (q - 1) := by
    unfold Context.row?
    rw [hr]
    grind
  simp only [Context.inst?, row]
  split
  · rfl
  · split <;> rfl

/-- R90, R120: the instances of a form without its row at position `p`. -/
theorem Context.inst?_removed {c c' : Context} {p : Nat} (hlo : 1 ≤ p) (hhi : p ≤ c.rows.length)
    (hr : c'.rows = c.rows.take (p - 1) ++ c.rows.drop p) (q j : Nat) :
    c'.inst? (.row q j) = if q < p then c.inst? (.row q j) else c.inst? (.row (q + 1) j) := by
  have row : c'.row? q = if q < p then c.row? q else c.row? (q + 1) := by
    unfold Context.row?
    rw [hr]
    grind
  simp only [Context.inst?, row]
  split <;> rfl

/-- The instances that a list holds for a list of definitions show their values. -/
def InstsShow (defs : List FieldDef) (insts : List FieldInst) : Prop :=
  ∀ (j : Nat) d x, defs[j]? = some d → insts[j]? = some x → ShowsValue d x

/-- R88, R119: a row joins the form. -/
theorem Work.Counted.rowJoins {l : List (Nat × Nat)} (h : w.Counted e (Touched w.v l)) {p : Nat} {x : RowRec}
    (hlo : 1 ≤ p) (hhi : p ≤ w.c.rows.length + 1) (hx : InstsShow w.v.rowDefs x.insts) (hv : w'.v = w.v)
    (hf : w'.c.fixed = w.c.fixed) (hr : w'.c.rows = w.c.rows.take (p - 1) ++ x :: w.c.rows.drop (p - 1)) :
    w'.Counted (e.map (shiftedByInsert p)) (RowStale p (Touched w.v (l.map (behindInsert p)))) := by
  have insts := Context.inst?_inserted hlo hhi hr
  refine ⟨hv ▸ h.sound, fun r d y hd hy => ?_, fun q hq => ?_⟩
  · rw [hv] at hd
    have kept : ∀ a, shiftedByInsert p a = r → w.v.defOf a = some d → w.c.inst? a = some y →
        e.map (shiftedByInsert p) = some r ∧ d.prot = false ∨ ShowsValue d y := fun a ha hd hy =>
      (h.shown a d y hd hy).imp_left fun ⟨he, hp⟩ => ⟨by rw [he, Option.map_some, ha], hp⟩
    cases r with
    | fixed i => exact kept (.fixed i) rfl hd (by rwa [Context.inst?, hf] at hy)
    | row q j =>
      rw [insts] at hy
      split at hy
      · rename_i before
        exact kept (.row q j) (if_neg (by omega)) hd hy
      split at hy
      · exact .inr (hx j d y hd hy)
      · refine kept (.row (q - 1) j) ?_ hd hy
        rw [shiftedByInsert, if_pos (by omega), Nat.sub_add_cancel (by omega)]
  · cases q with
    | fixed i => exact absurd trivial hq
    | row q j =>
      obtain ⟨other, untouched⟩ := not_or.mp hq
      have kept : ∀ q₀, (∀ k, behindInsert p (q₀, k) = (q, k)) →
          (∀ k, w'.c.inst? (.row q k) = w.c.inst? (.row q₀ k)) → CurrentAt w'.v w'.c (.row q j) := fun q₀ place same =>
        hv ▸ (h.current (.row q₀ j) fun ht => untouched (ht.moved h.sound _ place)).moved h.sound same
      rcases Nat.lt_or_gt_of_ne other with before | behind
      · exact kept q (fun k => if_neg (by omega)) fun k => by rw [insts, if_pos before]
      · refine kept (q - 1) (fun k => ?_) fun k => by rw [insts, if_neg (by omega), if_neg other]
        rw [behindInsert, if_pos (by dsimp only; omega), Nat.sub_add_cancel (by omega)]

/-- R90, R120: a row leaves the form. -/
theorem Work.Counted.rowLeaves (h : w.Counted e fun _ => False) {p : Nat} (hlo : 1 ≤ p) (hhi : p ≤ w.c.rows.length)
    (hv : w'.v = w.v) (hf : w'.c.fixed = w.c.fixed)
    (hr : w'.c.rows = w.c.rows.take (p - 1) ++ w.c.rows.drop p) :
    w'.Counted (e.bind (shiftedByRemove p)) SumsStale := by
  have insts := Context.inst?_removed hlo hhi hr
  refine ⟨hv ▸ h.sound, fun r d y hd hy => ?_, fun q hq => ?_⟩
  · rw [hv] at hd
    have kept : ∀ a, shiftedByRemove p a = some r → w.v.defOf a = some d → w.c.inst? a = some y →
        e.bind (shiftedByRemove p) = some r ∧ d.prot = false ∨ ShowsValue d y := fun a ha hd hy =>
      (h.shown a d y hd hy).imp_left fun ⟨he, hp⟩ => ⟨by rw [he, Option.bind_some, ha], hp⟩
    cases r with
    | fixed i => exact kept (.fixed i) rfl hd (by rwa [Context.inst?, hf] at hy)
    | row q j =>
      rw [insts] at hy
      split at hy
      · refine kept (.row q j) ?_ hd hy
        rw [shiftedByRemove, if_neg (by omega), if_neg (by omega)]
      · refine kept (.row (q + 1) j) ?_ hd hy
        rw [shiftedByRemove, if_neg (by omega), if_pos (by omega), Nat.add_sub_cancel]
  · cases q with
    | fixed i => exact absurd trivial hq
    | row q j =>
      have kept : ∀ q₀, (∀ k, w'.c.inst? (.row q k) = w.c.inst? (.row q₀ k)) →
          CurrentAt w'.v w'.c (.row q j) := fun q₀ same => hv ▸ (h.current (.row q₀ j) id).moved h.sound same
      by_cases before : q < p
      · exact kept q fun k => by rw [insts, if_pos before]
      · exact kept (q + 1) fun k => by rw [insts, if_neg before]

/-! ### Item lines (R87 to R91) -/

theorem initialInst_shows (d : FieldDef) : ShowsValue d (initialInst d) := fun numeric => by
  obtain ⟨p, policy, kind⟩ := isNumeric_iff.mp numeric
  unfold initialInst
  rw [kind]
  dsimp only
  split
  · rfl
  · simp [displayForm]

theorem instsShow_initial (defs : List FieldDef) : InstsShow defs (defs.map initialInst) := fun j d x hd hx => by
  rw [List.getElem?_map, hd] at hx
  cases hx
  exact initialInst_shows d

theorem Work.operatorPlace_range (w : Work) : 1 ≤ w.operatorPlace ∧ w.operatorPlace ≤ w.c.rows.length + 1 := by
  unfold Work.operatorPlace Work.rowCount
  cases h : w.c.slotRow w.cursorSlot with
  | none => exact ⟨Nat.le_add_left _ _, Nat.le_refl _⟩
  | some p =>
    obtain ⟨-, hlo, hhi⟩ := Context.slotRow_eq_some h
    exact ⟨hlo, hhi.trans (Nat.le_succ _)⟩

/-- R88, R95: the operator's row joins behind an exit. -/
theorem Work.Counted.insertOperatorRow {l : List (Nat × Nat)} (h : w.Counted none (Touched w.v l)) :
    (w.insertOperatorRow l).Current := by
  obtain ⟨hlo, hhi⟩ := w.operatorPlace_range
  have placed := h.rowJoins (x := initialRow w.v.rowDefs none true) hlo hhi (instsShow_initial w.v.rowDefs)
    (w.placeOperatorRow_v w.operatorPlace) (by rw [w.placeOperatorRow_c]) (by rw [w.placeOperatorRow_c, rowsJoined])
  have computed := placed.computeRow
  have version : ((w.placeOperatorRow w.operatorPlace).computeRow w.operatorPlace).v = w.v :=
    (Work.computeRow_keeps _ _).version.trans (w.placeOperatorRow_v _)
  rw [← version] at computed
  have counted : (w.countOperatorRow w.operatorPlace l).Counted none SumsStale := computed.computeProductsOf
  rw [w.insertOperatorRow_eq]
  exact ((counted.computeAllSums fun _ => id).of_insts (by simp) (by simp) (by simp)).ends

theorem Work.Current.rowInsertKey (h : w.Current) : w.rowInsertKey.Current := by
  unfold Work.rowInsertKey
  split
  · exact h.operatorError _
  split
  · exact h.operatorError _
  split
  · exact h.operatorError _
  split
  · rename_i hx
    exact ((h.touched []).exitField_failed hx).2.but (fun _ => id) fun _ => not_touched_nil
  · rename_i w' changed hx
    have passed := (h.touched []).exitField_passed hx
    rw [← (Work.exitField_passed_keeps hx).version, List.nil_append] at passed
    exact passed.insertOperatorRow

/-- R73: in a band row the cursor is in an instance of the row that its slot shows. -/
theorem instAt_band {v : TemplateVersion} {c : Context} (band : isBandRow v.group c.cursor.row = true) {p : Nat}
    (slot : c.slotRow (c.cursor.row + 1 - v.group.first) = some p) {r : InstRef} (h : instAt v c c.cursor = some r) :
    ∃ j, r = .row p j := by
  unfold instAt at h
  rw [if_pos band] at h
  obtain ⟨p', hp', hj⟩ := Option.bind_eq_some_iff.mp h
  obtain ⟨j, -, rfl⟩ := Option.map_eq_some_iff.mp hj
  have hlo := (isBandRow_eq_true.mp band).1
  rw [show c.cursor.row - v.group.first + 1 = c.cursor.row + 1 - v.group.first by omega, slot] at hp'
  cases hp'
  exact ⟨j, rfl⟩

/-- R90: the row under the cursor leaves, and with it an edit in it. -/
theorem Work.Current.deleteOperatorRow (h : w.Current) (band : isBandRow w.v.group w.c.cursor.row = true) {p : Nat}
    (slot : w.c.slotRow w.cursorSlot = some p) (x : RowRec) : (w.deleteOperatorRow p x).Current := by
  obtain ⟨-, hlo, hhi⟩ := Context.slotRow_eq_some slot
  obtain ⟨y, hy, hv, hc⟩ := w.deleteOperatorRow_eq p x
  have left : y.Counted ((editedRef w.v w.c).bind (shiftedByRemove p)) SumsStale :=
    Work.Counted.rowLeaves h hlo hhi hv (by rw [hc]) (by rw [hc])
  have gone : (editedRef w.v w.c).bind (shiftedByRemove p) = none := by
    cases edited : editedRef w.v w.c with
    | none => rfl
    | some r =>
      obtain ⟨j, rfl⟩ := instAt_band band slot (editedRef_eq_some.mp edited).2
      simp [shiftedByRemove]
  rw [gone] at left
  rw [hy]
  exact ((left.computeAllSums fun _ => id).of_insts (w' := y.computeAllSums.dirty .band) rfl rfl rfl).ends

theorem Work.Current.rowDeleteKey (h : w.Current) : w.rowDeleteKey.Current := by
  unfold Work.rowDeleteKey
  split
  · exact h.operatorError _
  rename_i allowed
  simp only [Bool.or_eq_true, Bool.not_eq_true', not_or, Bool.not_eq_false] at allowed
  split
  · exact h.operatorError _
  rename_i slot
  split
  · exact h.operatorError _
  split
  · exact h.operatorError _
  · exact h.deleteOperatorRow allowed.2 slot _

/-! ### Attention keys (R133, R134) -/

/-- A roll hides no value. -/
theorem Work.Counted.showRow (h : w.Counted e stale) (r : InstRef) : (w.showRow r).Counted e stale := by
  unfold Work.showRow
  split
  · exact h
  split
  · exact h
  · exact h.of_insts (by simp) (by simp) (by simp)

theorem Work.Current.reportKey (h : w.Current) (k : Byte) : (w.reportKey k).Current := by
  unfold Work.reportKey
  split
  · rename_i hx
    exact ((h.touched []).exitField_failed hx).2.but (fun _ => id) fun _ => not_touched_nil
  · rename_i w' changed hx
    have passed := (h.touched []).exitField_passed hx
    rw [← (Work.exitField_passed_keeps hx).version, List.nil_append] at passed
    dsimp only
    split
    · rename_i r _
      have moved : ∀ q, (((w'.tally changed).showRow r).moveCursor q).Current := fun q =>
        ((passed.tally.showRow r).of_insts (by simp) (by simp) (by simp)).ends
      exact (moved _).operatorError _
    · exact passed.tally.ends.latch k

/-! ### Applying a keystroke (R49) -/

theorem Work.Current.applyDecoded (h : w.Current) (key : Key) : (w.applyDecoded key).Current := by
  cases key with
  | data ch => exact h.dataKey ch
  | attention code =>
    unfold Work.applyDecoded
    dsimp only
    split
    · exact h.latch code
    · exact h.reportKey code
  | tab => exact h.moveAsTab false
  | backtab => exact h.exitTo _ _ _
  | home => exact h.exitTo _ _ _
  | newline => exact h.exitTo _ _ _
  | up => exact h.arrow _
  | down => exact h.arrow _
  | left => exact h.arrow _
  | right => exact h.arrow _
  | rollUp => exact h.rollTo _
  | rollDown => exact h.rollTo _
  | rowInsert => exact h.rowInsertKey
  | rowDelete => exact h.rowDeleteKey
  | delete => exact h.deleteKey
  | eraseEof => exact h.eraseEofKey
  | eraseInput => exact h.eraseInputKey
  | fieldExit => exact h.fieldExitKey
  | fieldMinus => exact h.fieldMinusKey
  | dup => exact h.dupKey
  | insert => exact h.setInsertMode _
  | reset => exact h.setInsertMode _

/-- R95, R107: a keystroke keeps the numbers of the form. -/
theorem Work.Current.applyKey (h : w.Current) (k : Byte) : (w.applyKey k).Current := by
  unfold Work.applyKey
  split
  · exact h
  · exact (h.setAdjusted false).applyDecoded _

end

end Sys2Proof.Machine

/-! PROOFS. The entries of a FILL and a COMPOSE leave the numbers of the form as R95 and R107 have them, and so does
every step (O58). -/

namespace Sys2Proof.Machine

/-! ### Host values (R40, R116) -/

theorem hostText_shows {d : FieldDef} {t : Text} {y : Text × Option Int} (h : hostText d t = some y) (x : FieldInst) :
    ShowsValue d (setByHost x y) := fun numeric => by
  obtain ⟨p, policy, kind⟩ := isNumeric_iff.mp numeric
  unfold hostText at h
  split at h
  · cases h
  rw [kind] at h
  obtain ⟨o, -, rfl⟩ := Option.map_eq_some_iff.mp h
  rfl

section
variable {defs : List FieldDef}

theorem InstsShow.applyValue {insts out : List FieldInst} (h : InstsShow defs insts) {x : ValueEntry}
    (hx : applyValue defs insts x = .ok out) : InstsShow defs out := by
  unfold Machine.applyValue at hx
  split at hx
  · cases hx
  split at hx
  · cases hx
  rename_i d hd
  split at hx
  · cases hx
  split at hx
  · cases hx
  rename_i t ht
  cases hx
  intro k d' y hd' hy
  rw [modifyNth, List.getElem?_modify] at hy
  obtain ⟨z, hz, rfl⟩ := Option.map_eq_some_iff.mp hy
  split
  · rename_i e
    subst e
    cases hd.symm.trans hd'
    exact hostText_shows ht z
  · exact h k d' z hd' hz

theorem InstsShow.applyValues (l : List ValueEntry) {insts out : List FieldInst} (h : InstsShow defs insts)
    (hx : applyValues defs insts l = .ok out) : InstsShow defs out := by
  induction l generalizing insts with
  | nil => cases hx; exact h
  | cons x rest ih =>
    unfold Machine.applyValues at hx
    split at hx
    · cases hx
    · rename_i applied
      exact ih (h.applyValue applied) hx

theorem InstsShow.applyFixed (l : List ValueEntry) {insts out : List FieldInst} {k : Nat} (h : InstsShow defs insts)
    (hx : applyFixed defs k insts l = .ok out) : InstsShow defs out := by
  induction l generalizing insts k with
  | nil => cases hx; exact h
  | cons x rest ih =>
    unfold Machine.applyFixed at hx
    split at hx
    · cases hx
    · rename_i applied
      exact ih (h.applyValue applied) hx

theorem composeRow_shows {built : List RowRec} {x : RowEntry} {r : RowRec} (h : composeRow defs built x = .ok r) :
    InstsShow defs r.insts := by
  unfold composeRow at h
  split at h
  · cases h
  · cases h
  · cases h
  · rename_i applied
    cases h
    exact (instsShow_initial defs).applyValues _ applied

theorem composeRows_shows (l : List RowEntry) {k : Nat} {built out : List RowRec}
    (h : ∀ r ∈ built, InstsShow defs r.insts) (hx : composeRows defs k built l = .ok out) :
    ∀ r ∈ out, InstsShow defs r.insts := by
  induction l generalizing k built with
  | nil => cases hx; exact h
  | cons x rest ih =>
    unfold composeRows at hx
    split at hx
    · cases hx
    · rename_i r applied
      exact ih (List.forall_mem_append.mpr ⟨h, List.forall_mem_singleton.mpr (composeRow_shows applied)⟩) hx

end

/-- R40: in a form being built every NUMERIC instance shows its value. -/
theorem buildContext_shown {v : TemplateVersion} {e : EntryId} {r : ComposeRec} {c : Context}
    (h : buildContext v e r = .ok c) : Shown v c none ∧ c.editing = false := by
  unfold buildContext at h
  split at h
  · cases h
  rename_i fixed hfixed
  split at h
  · cases h
  rename_i rows hrows
  cases h
  refine ⟨fun q d x hd hx => .inr ?_, rfl⟩
  cases q with
  | fixed i => exact (instsShow_initial _).applyFixed _ hfixed i d x hd hx
  | row p j =>
    obtain ⟨row, hrow, hj⟩ := Option.bind_eq_some_iff.mp hx
    have member := List.mem_of_getElem? (Context.row?_eq_some.mp hrow).2
    exact composeRows_shows r.rows (built := []) (by simp) hrows row member j d x hd hj

/-! ### FILL (R114 to R124) -/

section
variable {w w' : Work} {e : Option InstRef}

/-- R123: an abandoned edit shows its value again. -/
theorem Work.Counted.abandonEdit (h : w.Counted e fun _ => False) {r : InstRef} (he : ∀ q, e = some q → q = r) :
    (w.abandonEdit r).Current := by
  have left : (w.setEditing false).Counted e (Touched (w.setEditing false).v []) :=
    (h.but (fun _ => id) fun _ => False.elim).of_insts rfl rfl rfl
  unfold Work.abandonEdit
  have plain : (∀ d x, (w.setEditing false).v.defOf r = some d → (w.setEditing false).c.inst? r = some x →
      isNumeric d = false) → (w.setEditing false).Current := fun entered => by
    refine Work.Counted.ends ⟨h.sound, fun q d x hd hx => .inr ?_, h.current⟩
    rcases h.shown q d x hd hx with ⟨hq, -⟩ | shown
    · obtain rfl := he q hq
      intro numeric
      rw [entered d x hd hx] at numeric
      cases numeric
    · exact shown
  dsimp only
  split
  · rename_i d x hd hx
    split
    · rename_i numeric
      have shown := left.putInst (e' := none) hd hx (x' := { x with text := displayForm (numForm d) x.value })
        (fun derived => by rw [isNumeric_of_isDerived derived] at numeric; cases numeric) (.inr fun _ => rfl)
        fun q hq hs => absurd (he q hs) hq
      rw [if_pos rfl] at shown
      exact (shown.but (fun _ => id) fun _ => not_touched_nil).ends
    · rename_i text
      exact plain fun d' x' hd' hx' => by
        cases hd.symm.trans hd'
        exact Bool.eq_false_of_not_eq_true text
  · rename_i absent
    exact plain fun d x hd hx => (absent d x hd hx).elim

/-- R123: after an entry the edit goes on where the cursor still is in its instance, and is abandoned elsewhere. -/
theorem Work.Counted.leaveInst {before : Option InstRef}
    (h : w.Counted (if w.c.editing then before else none) fun _ => False) : (w.leaveInst before).Current := by
  unfold Work.leaveInst
  split
  · refine Work.Counted.ends ?_
    rwa [ite_self] at h
  rename_i r
  split
  · refine h.abandonEdit fun q hq => ?_
    split at hq
    · exact (Option.some.inj hq).symm
    · cases hq
  · rename_i stays
    refine h.but (fun q hq => ?_) fun _ => id
    cases editing : w.c.editing with
    | false => simp [editing] at hq
    | true =>
      simp only [editing, Bool.true_and, bne_iff_ne, ne_eq, not_not, if_true] at stays hq
      exact editedRef_eq_some.mpr ⟨editing, stays.trans hq⟩

/-- R117: an applied SET. -/
theorem Work.Current.setInst (h : w.Current) {r : InstRef} {d : FieldDef} (hd : w.v.defOf r = some d)
    (settable : isDerived d = false) {x : FieldInst} (hx : w.c.inst? r = some x) {t : Text} {y : Text × Option Int}
    (hy : hostText d t = some y) : (w.setInst r x y).Current := by
  unfold Work.setInst
  extract_lets cursorIn put left
  have version : left.v = w.v := by
    simp only [left, put]
    split <;> simp
  have counted : left.Counted (editedRef left.v left.c)
      (Touched left.v (if y.2 = x.value then [] else changedRow r)) := by
    rw [version]
    have frame := w.putInst_frame r (setByHost x y)
    have written : ∀ {e}, (∀ q, q ≠ r → editedRef w.v w.c = some q → e = some q) →
        put.Counted e (Touched w.v (if y.2 = x.value then [] else changedRow r)) := fun he =>
      (h.touched []).putInst hd hx (fun derived => by rw [settable] at derived; cases derived)
        (.inr (hostText_shows hy x)) he
    cases inside : cursorIn with
    | true =>
      have leaves : left = put.setEditing false := by simp only [left, inside, if_true]
      rw [leaves]
      refine (written (e := none) fun q hq he => absurd ?_ hq).of_insts rfl rfl rfl
      have at_cursor := (editedRef_eq_some.mp he).2
      rw [eq_of_beq inside] at at_cursor
      exact (Option.some.inj at_cursor).symm
    | false =>
      have stays : left = put := by simp only [left, inside, Bool.false_eq_true, if_false]
      have edited : editedRef w.v put.c = editedRef w.v w.c := by
        refine editedRef_frame frame ?_
        simp only [put, Work.putInst_c, hx, Option.isSome_some, if_true]
        rw [Context.modInst_others]
      rw [stays, edited]
      exact written fun _ _ => id
  split
  · rename_i same
    rw [if_pos same] at counted
    exact counted.none_touched
  · rename_i changed
    rw [if_neg changed] at counted
    exact counted.tally_ends

theorem Work.Current.fillSet (h : w.Current) {ref : FieldRef} {t : Text} (hx : w.fillSet ref t = .ok w') :
    w'.Current := by
  unfold Work.fillSet at hx
  split at hx
  · cases hx
  rename_i r d hr
  split at hx
  · cases hx
  rename_i settable
  split at hx
  · cases hx
  · rename_i ht hi
    cases hx
    exact h.setInst (resolveRef_row hr).1 (by simpa [hostSettable] using settable) hi ht
  · cases hx

theorem Work.Current.fillInsert (h : w.Current) {p : Nat} {x : RowEntry} (hx : w.fillInsert p x = .ok w') :
    w'.Current := by
  unfold Work.fillInsert at hx
  split at hx
  · cases hx
  rename_i place
  split at hx
  · cases hx
  split at hx
  · cases hx
  split at hx
  · cases hx
  rename_i insts hvalues
  split at hx
  · cases hx
  extract_lets before inserted summed at hx
  cases hx
  simp only [Bool.or_eq_true, decide_eq_true_eq, not_or, Nat.not_lt] at place
  have joined : inserted.Counted ((editedRef w.v w.c).map (shiftedByInsert p)) (RowStale p (Touched w.v [])) :=
    (h.touched []).rowJoins place.1 place.2 ((instsShow_initial _).applyValues _ hvalues) rfl rfl rfl
  have counted : summed.Counted ((editedRef w.v w.c).map (shiftedByInsert p)) fun _ => False :=
    (joined.of_insts (w' := inserted.dirtyBandAt p) (Work.dirtyBandAt_v _ _) (by simp) (by simp)).computeRow
      |>.computeAllSums fun _ stale => stale.resolve_right not_touched_nil
  have tallied : Tallied w.v (inserted.dirtyBandAt p).c summed.c := by
    have row := Tallied.computeRow (inserted.dirtyBandAt p) p
    have sums := Tallied.computeAllSums ((inserted.dirtyBandAt p).computeRow p)
    rw [(Work.computeRow_keeps _ p).version] at sums
    rw [Work.dirtyBandAt_v] at row sums
    exact row.trans sums
  have flag : summed.c.editing = w.c.editing := by
    rw [tallied.editing, Work.dirtyBandAt_c]
    rfl
  refine Work.Counted.leaveInst ?_
  rw [flag]
  refine counted.but (fun q hq => ?_) fun _ => id
  unfold editedRef at hq
  split at hq
  · rename_i editing
    rw [if_pos editing]
    exact hq
  · cases hq

theorem Work.Current.fillDelete (h : w.Current) {p : Nat} (hx : w.fillDelete p = .ok w') : w'.Current := by
  unfold Work.fillDelete at hx
  split at hx
  · cases hx
  rename_i place
  simp only [Bool.or_eq_true, decide_eq_true_eq, not_or, Nat.not_lt] at place
  extract_lets before shown removed _ clamped marked summed at hx
  have cut : clamped.Counted ((editedRef w.v w.c).bind (shiftedByRemove p)) SumsStale :=
    Work.Counted.rowLeaves h place.1 place.2 rfl rfl rfl
  have form : marked.v = clamped.v ∧ marked.c = clamped.c := by
    simp only [marked]
    split <;> exact ⟨rfl, rfl⟩
  have counted : summed.Counted ((editedRef w.v w.c).bind (shiftedByRemove p)) fun _ => False :=
    (cut.of_insts form.1 (by rw [form.2]) (by rw [form.2])).computeAllSums fun _ => id
  have flag : summed.c.editing = w.c.editing :=
    (Tallied.computeAllSums marked).editing.trans (show marked.c.editing = clamped.c.editing by rw [form.2])
  have edited : editedRef w.v w.c = if w.c.editing then before else none := rfl
  rw [edited] at counted
  clear_value before summed
  split at hx
  · cases hx
    rw [ite_self] at counted
    exact counted.ends
  split at hx
  · rename_i gone
    cases hx
    refine (counted.but (e' := none) (fun q hq => ?_) fun _ => id).of_insts (w' := summed.setEditing false) rfl rfl rfl
      |>.ends
    split at hq
    · rw [Option.bind_some, gone] at hq
      cases hq
    · cases hq
  · rename_i r' moved
    cases hx
    refine Work.Counted.leaveInst ?_
    rw [flag]
    refine counted.but (fun q hq => ?_) fun _ => id
    split at hq
    · rename_i editing
      rw [if_pos editing]
      rwa [Option.bind_some, moved] at hq
    · cases hq

/-- R121: a form with another tag for its row at index `k`. -/
def Context.withTag (c : Context) (k tag : Nat) : Context :=
  { c with rows := modifyNth c.rows k fun x => { x with tag := tagOf tag } }

theorem Context.withTag_frame (c : Context) (k tag : Nat) : SameFrame c (c.withTag k tag) :=
  ⟨by simp [Context.withTag, modifyNth], rfl, rfl⟩

theorem Context.withTag_inst (c : Context) (k tag : Nat) (q : InstRef) : (c.withTag k tag).inst? q = c.inst? q := by
  cases q with
  | fixed i => rfl
  | row p j =>
    cases p with
    | zero => rfl
    | succ n =>
      simp only [Context.withTag, Context.inst?, Context.row?_succ, modifyNth, List.getElem?_modify]
      cases c.rows[n]? with
      | none => rfl
      | some x =>
        simp only [Option.bind_some]
        split <;> rfl

/-- R121: another tag changes no instance. -/
theorem Work.Current.fillTag (h : w.Current) {p tag : Nat} (hx : w.fillTag p tag = .ok w') : w'.Current := by
  unfold Work.fillTag at hx
  split at hx
  · cases hx
  split at hx
  · cases hx
  cases hx
  have frame := w.c.withTag_frame (p - 1) tag
  have edited : editedRef w.v (w.c.withTag (p - 1) tag) = editedRef w.v w.c := editedRef_frame frame rfl
  change Work.Counted _ (editedRef w.v (w.c.withTag (p - 1) tag)) _
  rw [edited]
  exact Work.Counted.of_same h rfl frame.rows (w.c.withTag_inst (p - 1) tag)

theorem Work.Current.fillCursor (h : w.Current) {ref : FieldRef} (hx : w.fillCursor ref = .ok w') : w'.Current := by
  unfold Work.fillCursor at hx
  split at hx
  · cases hx
  · rename_i r d hr
    cases hx
    refine Work.Counted.leaveInst ?_
    have flag : (w.showRow r).c.editing = w.c.editing := by
      unfold Work.showRow
      repeat' split
      all_goals simp
    rw [Work.moveCursor_c, flag]
    exact (Work.Counted.showRow h r).of_insts (by simp) (by simp) (by simp)

/-- R114: an entry of a FILL keeps the numbers of the form. -/
theorem Work.Current.fillEntry (h : w.Current) {e : FillEntry} (hx : w.fillEntry e = .ok w') : w'.Current := by
  cases e with
  | set ref t => exact h.fillSet hx
  | appendRow row => exact h.fillInsert hx
  | insertRow p row => exact h.fillInsert hx
  | deleteRow p => exact h.fillDelete hx
  | tagRow p tag => exact h.fillTag hx
  | cursor ref => exact h.fillCursor hx

end

/-! ### The law of the numbers -/

/-- R95, R107, R123: the numbers of a form between acts. -/
structure Numbers (v : TemplateVersion) (c : Context) : Prop where
  shown : Shown v c (editedRef v c)
  current : ∀ q, CurrentAt v c q

theorem Work.current_iff {w : Work} (hv : SoundVersion w.v) : w.Current ↔ Numbers w.v w.c :=
  ⟨fun h => ⟨h.shown, fun q => h.current q id⟩, fun h => ⟨hv, h.shown, fun q _ => h.current q⟩⟩

/-- Every reference to an instance of a form in its shape has its definition and its instance. -/
theorem Shaped.present {v : TemplateVersion} {c : Context} (h : Shaped v c) {r : InstRef} (hr : r ∈ allRefs v c) :
    ∃ d x, v.defOf r = some d ∧ c.inst? r = some x := by
  rcases mem_allRefs.mp hr with ⟨i, hi, rfl⟩ | ⟨k, j, hk, hj, rfl⟩
  · exact ⟨_, _, List.getElem?_eq_getElem hi, List.getElem?_eq_getElem (h.fixed.length_eq ▸ hi)⟩
  · have row := (h.rows _ (List.getElem_mem hk)).length_eq
    refine ⟨_, _, List.getElem?_eq_getElem hj, (?_ : _ = some (c.rows[k].insts[j]))⟩
    simp only [Context.inst?, Context.row?_succ, List.getElem?_eq_getElem hk, Option.bind_some]
    exact List.getElem?_eq_getElem (row ▸ hj)

/-- One instance as `numbersLaw` tests it. -/
theorem numbersLaw_at {v : TemplateVersion} {c : Context} {r : InstRef} {d : FieldDef} {x : FieldInst} :
    ((!isNumeric d || (c.editing && !d.prot && instAt v c c.cursor == some r)
          || x.text == displayForm (numForm d) x.value)
        && (!isDerived d || computed v c r.position d x == x)) = true
      ↔ (editedRef v c = some r ∧ d.prot = false ∨ ShowsValue d x) ∧ computed v c r.position d x = x := by
  have current : isDerived d = false ∨ computed v c r.position d x = x ↔ computed v c r.position d x = x :=
    or_iff_right_of_imp fun h => computed_of_not_derived h x
  simp only [Bool.and_eq_true, Bool.or_eq_true, Bool.not_eq_true', beq_iff_eq, editedRef_eq_some, ShowsValue, current]
  refine and_congr_left fun _ => ?_
  cases isNumeric d with
  | false => simp
  | true => simp [and_right_comm]

theorem numbersLaw_iff {v : TemplateVersion} {c : Context} (h : Shaped v c) : numbersLaw v c = true ↔ Numbers v c := by
  simp only [numbersLaw, List.all_eq_true]
  constructor
  · intro law
    have at_inst : ∀ r d x, v.defOf r = some d → c.inst? r = some x →
        (editedRef v c = some r ∧ d.prot = false ∨ ShowsValue d x) ∧ computed v c r.position d x = x :=
      fun r d x hd hx => by
        have tested := law r (mem_allRefs_of_inst hd hx)
        rw [hd, hx] at tested
        exact numbersLaw_at.mp tested
    exact ⟨fun r d x hd hx => (at_inst r d x hd hx).1, fun r d x hd hx => (at_inst r d x hd hx).2⟩
  · intro numbers r hr
    obtain ⟨d, x, hd, hx⟩ := h.present hr
    rw [hd, hx]
    exact numbersLaw_at.mpr ⟨numbers.shown r d x hd hx, numbers.current r d x hd hx⟩

theorem clearModifiedIn_inst (c : Context) (q : InstRef) :
    (clearModifiedIn c).inst? q = (c.inst? q).map fun x => { x with modified := false } := by
  cases q with
  | fixed i => exact List.getElem?_map
  | row p j =>
    cases p with
    | zero => rfl
    | succ k =>
      simp only [clearModifiedIn, Context.inst?, Context.row?_succ, List.getElem?_map]
      cases c.rows[k]? with
      | none => rfl
      | some x => exact List.getElem?_map

/-- R124, R128: clear modified flags leave the numbers. -/
theorem Numbers.clearModified {v : TemplateVersion} {c : Context} (h : Numbers v c) :
    Numbers v (clearModifiedIn c) := by
  have insts := clearModifiedIn_inst c
  have rows : (clearModifiedIn c).rows.length = c.rows.length := List.length_map _
  have values : ∀ q, (clearModifiedIn c).valueAt q = c.valueAt q := fun q => by
    rw [Context.valueAt, Context.valueAt, insts]
    cases c.inst? q <;> rfl
  have edited : editedRef v (clearModifiedIn c) = editedRef v c := editedRef_frame ⟨rows, rfl, rfl⟩ rfl
  refine ⟨fun r d x hd hx => ?_, fun q d x hd hx => ?_⟩
  · rw [insts] at hx
    obtain ⟨y, hy, rfl⟩ := Option.map_eq_some_iff.mp hx
    rw [edited]
    exact h.shown r d y hd hy
  · rw [insts] at hx
    obtain ⟨y, hy, rfl⟩ := Option.map_eq_some_iff.mp hx
    rw [computed_congr_values rows (fun r _ => values r), computed_withModified, h.current q d y hd hy]

/-- R41: the numbers of the form of a COMPOSE. -/
theorem Numbers.composed {w : Work} {e : EntryId} {r : ComposeRec} (hv : SoundVersion w.v)
    (h : buildContext w.v e r = .ok w.c) : Numbers w.v (placeCursor w.v w.tallyAll.c r.cursor) := by
  obtain ⟨shown, closed⟩ := buildContext_shown h
  have tallied := Tallied.tallyAll w
  have place := placeCursor_eq w.v w.tallyAll.c r.cursor
  have insts : ∀ q, (placeCursor w.v w.tallyAll.c r.cursor).inst? q = w.tallyAll.c.inst? q := fun q => by
    rw [place]
    rfl
  refine ⟨fun q d x hd hx => .inr ?_, fun q d x hd hx => ?_⟩
  · exact (shown.tallied tallied q d x hd (insts q ▸ hx)).resolve_left (fun hidden => nomatch hidden.1)
  · cases derived : isDerived d with
    | false => exact computed_of_not_derived derived x
    | true =>
      rw [(buildContext_fresh h).composed.derived hv q d x hd hx derived, computed_idem]

/-- The rule of the numbers, on sound versions and forms in their shape. -/
def FormRule.numbers : FormRule :=
  { staged := FormRule.shapes.staged, version := SoundVersion, form := fun v c => Shaped v c ∧ Numbers v c }

theorem FormRule.numbers_closed : FormRule.numbers.Closed where
  begun := FormRule.shapes_closed.begun
  added := FormRule.shapes_closed.added
  installed := FormRule.shapes_closed.installed
  versionCounts := FormRule.shapes_closed.versionCounts
  formCounts st n h := ⟨FormRule.shapes_closed.formCounts st n h.1, h.2.shown, h.2.current⟩
  composed hv hcount hbuilt := ⟨FormRule.shapes_closed.composed hv hcount hbuilt, .composed hv hbuilt⟩
  adjusted b h := ⟨FormRule.shapes_closed.adjusted b h.1, h.2.shown, h.2.current⟩
  modifiedCleared h := ⟨FormRule.shapes_closed.modifiedCleared h.1, h.2.clearModified⟩
  key {w} k hv h := by
    have applied := Work.Current.applyKey ((Work.current_iff hv).mpr h.2) k
    have version := (Work.applyKey_keeps w k).version
    exact ⟨FormRule.shapes_closed.key k hv h.1, version ▸ (Work.current_iff (version ▸ hv)).mp applied⟩
  entry {w w' _} hv h hx := by
    have applied := Work.Current.fillEntry ((Work.current_iff hv).mpr h.2) hx
    have version := (Work.fillEntry_keeps hx).version
    exact ⟨FormRule.shapes_closed.entry hv h.1 hx, version ▸ (Work.current_iff (version ▸ hv)).mp applied⟩

theorem FormRule.numbers_holds {s : State} : FormRule.numbers.Holds s ↔ NumbersLaw s := by
  have shapes := FormRule.shapes_holds (s := s)
  constructor
  · intro h
    refine ⟨shapes.mp ⟨h.store, h.staged, h.versions, fun i c hc => (h.forms i c hc).1⟩, fun i c hc => ?_⟩
    exact (numbersLaw_iff (h.forms i c hc).1).mpr (h.forms i c hc).2
  · rintro ⟨forms, numbers⟩
    have h := shapes.mpr forms
    exact ⟨h.store, h.staged, h.versions, fun i c hc =>
      ⟨h.forms i c hc, (numbersLaw_iff (h.forms i c hc)).mp (numbers i c hc)⟩⟩

/-- Settles O58: the walk over the commands, for the rule of the numbers. -/
theorem stepKeepsNumbers : Obligations.StepKeepsNumbers := by
  intro s t h ht
  exact FormRule.numbers_holds.mp ((FormRule.numbers_holds.mpr h).step FormRule.numbers_closed ht)

end Sys2Proof.Machine

/-! PROOFS. The arithmetic of the Tally Unit (R97 to R106): rounding half away from zero, the accumulator within its
limit, and the result that a field can show (O51). -/

namespace Sys2Proof.Machine

/-! ### Rounding -/

/-- The quotient of a rounding times its divisor lies within half a divisor of the dividend, above it at one half. -/
theorem roundedQuotient_bounds (n : Nat) {d : Nat} (hd : 0 < d) :
    2 * (d * ((2 * n + d) / (2 * d))) ≤ 2 * n + d ∧ 2 * n < 2 * (d * ((2 * n + d) / (2 * d))) + d := by
  have parts := Nat.div_add_mod (2 * n + d) (2 * d)
  have rest := Nat.mod_lt (2 * n + d) (show 0 < 2 * d by omega)
  rw [Nat.mul_assoc] at parts
  omega

/-- A rounding has the sign of the dividend, and the rounded magnitude. -/
theorem mul_divRound (x : Int) (d : Nat) :
    d * divRound x d = if x < 0 then -((d * ((2 * x.natAbs + d) / (2 * d)) : Nat) : Int)
      else ((d * ((2 * x.natAbs + d) / (2 * d)) : Nat) : Int) := by
  unfold divRound
  dsimp only
  split <;> push_cast <;> ring

theorem divRound_halfAway (x : Int) {d : Nat} (hd : 0 < d) : 2 * (d * divRound x d - x).natAbs ≤ d
    ∧ (2 * (d * divRound x d - x).natAbs = d → x.natAbs < (d * divRound x d).natAbs) := by
  obtain ⟨upper, lower⟩ := roundedQuotient_bounds x.natAbs hd
  rw [mul_divRound]
  generalize d * ((2 * x.natAbs + d) / (2 * d)) = t at upper lower
  split <;> omega

/-! ### The accumulator (R97) -/

/-- R97: the accumulator is within its limit, and without an excursion noted none is counted. -/
structure Accumulator.Within (a : Accumulator) : Prop where
  limit : a.value.natAbs ≤ 10 ^ 17 - 1
  excursion : a.noted = false → a.excursion = 0

theorem Accumulator.start_within : Accumulator.start.Within := ⟨Nat.zero_le _, fun _ => rfl⟩

/-- R97: an operation within the limit is exact; beyond it the limit is taken and the excursion noted. -/
theorem Accumulator.take_eq (a : Accumulator) (exact : Int) : a.take exact =
    if 10 ^ 17 - 1 < exact then { value := 10 ^ 17 - 1, excursion := a.excursion + 1, noted := true }
    else if exact < -(10 ^ 17 - 1) then { value := -(10 ^ 17 - 1), excursion := a.excursion - 1, noted := true }
    else { a with value := exact } := rfl

theorem Accumulator.take_within {a : Accumulator} (h : a.Within) (exact : Int) : (a.take exact).Within := by
  rw [Accumulator.take_eq]
  split
  · exact ⟨Nat.le_refl _, nofun⟩
  split
  · exact ⟨Nat.le_refl _, nofun⟩
  · exact ⟨by dsimp only; omega, h.excursion⟩

/-- R97: an operation that notes no excursion follows none and is exact. -/
theorem Accumulator.take_unnoted {a : Accumulator} {exact : Int} (h : (a.take exact).noted = false) :
    a.noted = false ∧ (a.take exact).value = exact := by
  rw [Accumulator.take_eq] at h ⊢
  split at h
  · cases h
  split at h
  · cases h
  · rename_i below above
    rw [if_neg below, if_neg above]
    exact ⟨h, rfl⟩

/-! ### SUM (R100) -/

theorem sumAccumulator_append (scale : Nat) (values : List (Option Int)) (m : Option Int) :
    sumAccumulator scale (values ++ [m])
      = (sumAccumulator scale values).take ((sumAccumulator scale values).value + m.getD 0 * 10 ^ (4 - scale)) := by
  simp [sumAccumulator]

theorem sumAccumulator_within (scale : Nat) (values : List (Option Int)) : (sumAccumulator scale values).Within :=
  foldl_keeps (P := Accumulator.Within) (fun _ _ h => Accumulator.take_within h _) values Accumulator.start_within

/-- R100: a SUM that notes no excursion is the exact total. -/
theorem sumAccumulator_exact (scale : Nat) (values : List (Option Int))
    (h : (sumAccumulator scale values).noted = false) :
    (sumAccumulator scale values).value = (values.map fun x => x.getD 0 * 10 ^ (4 - scale)).sum := by
  induction values using List.reverseRecOn with
  | nil => rfl
  | append_singleton values m ih =>
    rw [sumAccumulator_append] at h ⊢
    obtain ⟨unnoted, exact⟩ := Accumulator.take_unnoted h
    rw [exact, ih unnoted, List.map_append, List.sum_append, List.map_singleton, List.sum_singleton]

/-! ### PRODUCT (R98, R99) -/

theorem rescaleProduct_eq (p : Int) (scale : Nat) : rescaleProduct p scale
    = if scale ≤ 4 then p * 10 ^ (4 - scale) else divRound p (10 ^ (scale - 4)) := by
  unfold rescaleProduct
  split
  · rename_i above
    rw [if_neg (Nat.not_le.mpr above)]
  · rename_i within
    rw [if_pos (Nat.not_lt.mp within)]
    push_cast
    rfl

/-! ### The fit of a result (R102 to R106) -/

/-- R103: the results that a field shows truly. -/
theorem outOfRange_eq_false {f : NumForm} {a : Accumulator} : outOfRange f a = false ↔
    a.noted = false ∧ (divRound a.value (10 ^ (4 - f.scale))).natAbs ≤ 10 ^ f.digits - 1
      ∧ (divRound a.value (10 ^ (4 - f.scale)) < 0 → f.signed = true) := by
  simp only [outOfRange, Bool.or_eq_false_iff, Bool.and_eq_false_imp, decide_eq_true_eq, decide_eq_false_iff_not,
    Nat.not_lt, gt_iff_lt, Bool.not_eq_false', and_assoc]
  rfl

theorem NumForm.limit_cast (f : NumForm) : (f.limit : Int) = 10 ^ f.digits - 1 := by
  have pos : 1 ≤ 10 ^ f.digits := Nat.one_le_pow _ _ (by decide)
  rw [NumForm.limit, Nat.cast_sub pos]
  push_cast
  rfl

/-- R105: the limit of a field in the direction of a result. -/
theorem saturationValue_spec (f : NumForm) (v : Int) : (0 < v → saturationValue f v = 10 ^ f.digits - 1)
    ∧ (v = 0 → saturationValue f v = 0)
    ∧ (v < 0 → saturationValue f v = if f.signed then -(10 ^ f.digits - 1) else 0) := by
  unfold saturationValue
  rw [f.limit_cast]
  refine ⟨fun h => if_pos h, fun h => ?_, fun h => ?_⟩
  · rw [if_neg (by omega), if_neg (by omega)]
  · rw [if_neg (by omega), if_pos h]

section
variable {f : NumForm} {a : Accumulator}

theorem fitResult_shown (h : outOfRange f a = false) (o : Nat) (x : FieldInst) : fitResult f o a x = { x with
    text := displayForm f (some (candidate f.scale a.value)), value := some (candidate f.scale a.value)
    status := .valid, excursion := 0 } := by
  simp only [fitResult, h, Bool.false_eq_true, if_false]

theorem fitResult_held (h : outOfRange f a = true) {o : Nat} (ho : o ≠ 0) (x : FieldInst) :
    fitResult f o a x = { x with status := .held, excursion := a.excursion } := by
  simp only [fitResult, h, if_true, if_neg ho]

theorem fitResult_saturated (h : outOfRange f a = true) (x : FieldInst) : fitResult f 0 a x = { x with
    text := displayForm f (some (saturationValue f a.value)), value := some (saturationValue f a.value)
    status := .saturated, excursion := a.excursion } := by
  simp only [fitResult, h, if_true]

end

/-- Settles O51: rounding, the accumulator, PRODUCT, SUM and the fit, each by its own lemma. -/
theorem tallyStaysWithinLimits : Obligations.TallyStaysWithinLimits := by
  refine ⟨fun x d hd => divRound_halfAway x hd, fun scale values _ => ?_, fun sa sb ma mb a h => ?_, fun _ => rfl,
    sumAccumulator_append, fun sa sb ma mb absent => ?_, fun f o a x _ => ?_⟩
  · have within := sumAccumulator_within scale values
    exact ⟨within.limit, fun unnoted => ⟨within.excursion unnoted, sumAccumulator_exact scale values unnoted⟩⟩
  · cases h
    exact ⟨(Accumulator.take_within Accumulator.start_within _).limit, by rw [rescaleProduct_eq]; rfl⟩
  · rcases absent with rfl | rfl
    · rfl
    · cases ma <;> rfl
  · have beyond := fun out => Bool.eq_true_of_not_eq_false ((outOfRange_eq_false (f := f) (a := a)).not.mpr out)
    refine ⟨fun inRange => ?_, fun out hold => ?_, fun out saturate => ?_⟩
    · rw [fitResult_shown (outOfRange_eq_false.mpr inRange)]
      exact ⟨rfl, rfl, rfl, rfl⟩
    · exact fitResult_held (beyond out) hold x
    · subst saturate
      obtain ⟨above, zero, below⟩ := saturationValue_spec f a.value
      rw [fitResult_saturated (beyond out)]
      exact ⟨rfl, rfl, rfl, rfl, fun h => congrArg some (above h), fun h => congrArg some (zero h),
        fun h => congrArg some (below h)⟩

end Sys2Proof.Machine

/-! PROOFS. The station records that touch no field (R125 to R129): a record taken at once, the indicator as the keyboard
opens and closes, NOTE and LOCK. -/

namespace Sys2Proof.Machine

variable {s : State} {i : StationId} {g : GenId}

/-! ### A record that arrives at a station ready for it (R35, R181) -/

theorem State.arriveRecord_ready (h : Receiving s g) (hr : Ready s i) (r : StationRecord) :
    s.arriveRecord i r = s.hunting.takeRecord i ⟨g, r⟩ := by
  unfold State.arriveRecord
  rw [State.arrive_receiving h]
  exact State.arriveStation_ready (s := s.hunting) hr r g

section
variable (h : Receiving s g) (hr : Ready s i)
include h hr

theorem exec_note (alarm : Bool) (t : Text) :
    exec (.note i alarm t) s = .next (s.hunting.takeNote i g alarm t) :=
  congrArg Host.Outcome.next (State.arriveRecord_ready h hr _)

theorem exec_lock : exec (.lock i) s = .next (s.hunting.takeLock i g) :=
  congrArg Host.Outcome.next (State.arriveRecord_ready h hr _)

theorem exec_unlock : exec (.unlock i) s = .next (s.hunting.takeUnlock i g) :=
  congrArg Host.Outcome.next (State.arriveRecord_ready h hr _)

theorem exec_resetModified : exec (.resetModified i) s = .next (s.hunting.takeResetModified i g) :=
  congrArg Host.Outcome.next (State.arriveRecord_ready h hr _)

theorem exec_read : exec (.read i) s = .next (s.hunting.takeRead i g) :=
  congrArg Host.Outcome.next (State.arriveRecord_ready h hr _)

theorem exec_fill (l : List FillEntry) (u m : Bool) :
    exec (.recordJoinsQueue i (.fill l u m)) s = .next (s.hunting.takeFill i g l u m) :=
  congrArg Host.Outcome.next (State.arriveRecord_ready h hr _)

end

theorem Ready.snapshotSlot (hr : Ready s i) : s.snapshotSlot i = none := by
  obtain ⟨-, -, -, frozen⟩ := hr
  simp only [State.frozen, Bool.or_eq_false_iff, Option.isSome_eq_false_iff, Option.isNone_iff_eq_none] at frozen
  exact frozen.2

/-! ### The indicator as the keyboard opens and closes (R159) -/

/-- The first character of the indicator in ENTRY. -/
def entryInitial (l : Lock) (o : Option Context) : Byte :=
  match l with
  | .none => if o.any Context.adjusted then 0x41 else 0x20
  | .system => 0x20
  | .snapshot => 0x52
  | .operatorError _ => 0x45

theorem indicator_entry_head (l : Lock) (o : Option Context) :
    (indicator .entry l o).head? = some (entryInitial l o) := by
  cases l with
  | none =>
    cases o with
    | none => rfl
    | some c =>
      obtain ⟨_, _, _, _, _, _, _, _, adjusted⟩ := c
      cases adjusted <;> rfl
  | _ => rfl

theorem indicator_held_head (l : Lock) (o : Option Context) : (indicator .held l o).head? = some 0x48 := rfl

theorem indicator_attention_head (l : Lock) (o : Option Context) : (indicator .attention l o).head? = some 0x53 := rfl

/-- R27: a state and a lock under which the keyboard of a form stays closed until it is opened. -/
def KeyboardClosed (st : Station) : Prop :=
  st.state = .held ∨ st.state = .attention ∨ st.state = .entry ∧ st.lock = .snapshot

/-- R159: HELD, SENT and READ do not show where the keyboard is open. -/
theorem KeyboardClosed.indicator_ne {st : Station} (h : KeyboardClosed st) (o o' : Option Context) :
    indicator .entry .none o ≠ indicator st.state st.lock o' := by
  intro same
  have head := congrArg List.head? same
  rw [indicator_entry_head] at head
  have initial : entryInitial .none o = 0x41 ∨ entryInitial .none o = 0x20 := by
    simp only [entryInitial]
    split
    · exact .inl rfl
    · exact .inr rfl
  rcases h with hs | hs | ⟨hs, hl⟩
  · rw [hs, indicator_held_head] at head
    rcases initial with e | e <;> simp [e] at head
  · rw [hs, indicator_attention_head] at head
    rcases initial with e | e <;> simp [e] at head
  · rw [hs, hl, indicator_entry_head, Option.some_inj] at head
    rcases initial with e | e <;> rw [e] at head <;> cases head

/-- R159: HELD does not show in ENTRY. -/
theorem indicator_held_ne_entry (l m : Lock) (o o' : Option Context) : indicator .held l o ≠ indicator .entry m o' := by
  intro same
  have head := congrArg List.head? same
  rw [indicator_held_head, indicator_entry_head] at head
  cases m with
  | none => simp only [entryInitial] at head; split at head <;> simp at head
  | system => simp [entryInitial] at head
  | snapshot => simp [entryInitial] at head
  | operatorError code => simp [entryInitial] at head

/-- R159: where the indicator's text changes, the MESSAGE entry is added. -/
theorem Station.withIndicator_of_ne {st : Station} {f : Station → Station}
    (h : indicator (f st).state (f st).lock (f st).ctx ≠ indicator st.state st.lock st.ctx) :
    st.withIndicator f = { f st with paint := (f st).paint.add (f st).ctx.isSome .message } := by
  unfold Station.withIndicator
  dsimp only
  rw [if_neg h]

/-! ### NOTE (R125) -/

theorem noteRefused_eq_false {t : Text} : (!t.all isComposerChar || Config.noteWidth < t.length) = false
    ↔ t.length ≤ 64 ∧ ∀ c ∈ t, 0x20 ≤ c.toNat ∧ c.toNat ≤ 0x7E := by
  change (!t.all isComposerChar || decide (64 < t.length)) = false ↔ _
  simp [isComposerChar, and_comm (a := t.length ≤ 64)]

theorem State.takeNote_good {t : Text} (h : (!t.all isComposerChar || Config.noteWidth < t.length) = false)
    (alarm : Bool) : s.takeNote i g alarm t =
      let paint := (s.station i).paint.add (s.station i).ctx.isSome .message
      (s.setStation i { s.station i with
        note := padRight Config.noteWidth t
        paint := if alarm then { paint with alarm := true } else paint }).doneRecord i g 0x22 := by
  unfold State.takeNote
  rw [h]
  cases alarm
  all_goals
    simp only [State.modPaint, State.modStation_modStation, Bool.false_eq_true, if_false, if_true]
    rfl

/-! ### LOCK (R126) -/

section
variable {c : Context}

theorem State.takeLock_entry (hs : (s.station i).state = .entry) (hc : (s.station i).ctx = some c) :
    s.takeLock i g = (s.setLock i .held .system).doneRecord i g 0x23 := by
  unfold State.takeLock
  rw [hs, hc]

theorem State.takeLock_composing (hs : (s.station i).state = .composing) (hc : (s.station i).ctx = some c) :
    s.takeLock i g = (s.setStation i { s.station i with unlockAtEnd := false }).doneRecord i g 0x23 := by
  unfold State.takeLock
  rw [hs, hc]
  rfl

theorem State.takeLock_closed (hs : (s.station i).state = .held ∨ (s.station i).state = .attention)
    (hc : (s.station i).ctx = some c) : s.takeLock i g = s.doneRecord i g 0x23 := by
  unfold State.takeLock
  rcases hs with hs | hs <;> rw [hs, hc]

theorem State.takeLock_formless (hc : (s.station i).ctx = none) :
    s.takeLock i g = s.refuseRecord i g 0x23 .state none none := by
  unfold State.takeLock
  rw [hc]
  cases (s.station i).state <;> rfl

/-- R126, R159: ENTRY becomes HELD, which the indicator shows. -/
theorem Station.withIndicator_held {st : Station} (hs : st.state = .entry) (hc : st.ctx.isSome = true) :
    st.withIndicator (fun st => { st with state := .held, lock := .system })
      = { st with state := .held, lock := .system, paint := st.paint.add true .message } := by
  rw [Station.withIndicator_of_ne (by rw [hs]; exact indicator_held_ne_entry _ _ _ _)]
  dsimp only
  rw [hc]

end

/-- Settles O38: NOTE by its one check, LOCK by the state of the station. -/
theorem noteAndLockAreTaken : Obligations.NoteAndLockAreTaken := by
  refine ⟨fun s i g alarm text h hr => ?_, fun s i g h hr => ?_⟩
  · intro good paint
    have checks : (!text.all isComposerChar || Config.noteWidth < text.length) = false ↔ good := noteRefused_eq_false
    refine ⟨fun ok => ?_, fun bad => ?_⟩
    · rw [exec_note h hr, State.takeNote_good (checks.mpr ok)]
      rfl
    · rw [exec_note h hr]
      unfold State.takeNote
      rw [if_pos (Bool.of_not_eq_false (mt checks.mp bad))]
      rfl
  · intro st
    rw [exec_lock h hr]
    have form : st.ctx.isSome = true → ∃ c, st.ctx = some c := Option.isSome_iff_exists.mp
    refine ⟨fun hc => ?_, fun hc hs _ => ?_, fun hc hs => ?_, fun hc hs => ?_⟩
    · rw [State.takeLock_formless (s := s.hunting) hc]
      rfl
    · obtain ⟨c, some⟩ := form hc
      rw [State.takeLock_entry (s := s.hunting) hs some, State.setLock_eq,
        Station.withIndicator_held (st := s.hunting.station i) hs hc]
      rfl
    · obtain ⟨c, some⟩ := form hc
      rw [State.takeLock_composing (s := s.hunting) hs some]
      rfl
    · obtain ⟨c, some⟩ := form hc
      rw [State.takeLock_closed (s := s.hunting) hs some]
      rfl

end Sys2Proof.Machine

/-! PROOFS. A FILL as an act (R114, R124): a FILL of one entry, what its options are, TAG ROW, and the modified flags. -/

namespace Sys2Proof.Machine

variable {s : State} {i : StationId} {g : GenId} {c : Context}

/-! ### The act of a FILL (R114) -/

theorem Work.fill_nil (w : Work) (u m : Bool) : w.fill [] u m = (w.fillOptions u m, none) := rfl

theorem Work.fillOptions_none (w : Work) : w.fillOptions false false = w := rfl

/-- R114: a FILL of one entry is that entry. -/
theorem Work.fill_one_ok {w w' : Work} {e : FillEntry} (he : w.fillEntry e = .ok w') :
    w.fill [e] false false = (w', none) := by
  simp only [Work.fill, Work.fillEntries, he, Work.fillOptions_none]

theorem Work.fill_one_error {w : Work} {e : FillEntry} {r : Reason} (he : w.fillEntry e = .error r) :
    w.fill [e] false false = (w, some (r, 1)) := by
  simp only [Work.fill, Work.fillEntries, he]

theorem State.takeFill_done (hc : (s.station i).ctx = some c) {l : List FillEntry} {u m : Bool} {w : Work}
    (hw : (s.openWork i c).fill l u m = (w, none)) :
    s.takeFill i g l u m = (s.closeWork i w).place g (stationNumber i) (.done 0x21) := by
  unfold State.takeFill
  rw [hc]
  dsimp only
  rw [hw]

theorem State.takeFill_stopped (hc : (s.station i).ctx = some c) {l : List FillEntry} {u m : Bool} {w : Work}
    {r : Reason} {k : Nat} (hw : (s.openWork i c).fill l u m = (w, some (r, k))) :
    s.takeFill i g l u m
      = (s.closeWork i w).place g (stationNumber i) (stationException i 0x21 r none (some k)) := by
  unfold State.takeFill
  rw [hc]
  dsimp only
  rw [hw]
  rfl

theorem State.takeFill_formless (hc : (s.station i).ctx = none) (l : List FillEntry) (u m : Bool) :
    s.takeFill i g l u m = s.refuseRecord i g 0x21 .state none none := by
  unfold State.takeFill
  rw [hc]

/-- An act that has changed nothing leaves the part as it is. -/
theorem State.closeWork_openWork (hc : (s.station i).ctx = some c) : s.closeWork i (s.openWork i c) = s := by
  rw [State.closeWork_quiet rfl rfl rfl]
  have same : ({ (s.openWork i c).st with ctx := some (s.openWork i c).c } : Station) = s.station i := by
    change ({ s.station i with ctx := some c } : Station) = _
    rw [← hc]
  rw [same, State.setStation_station]

/-- An act with another station record and another form at its end. -/
theorem State.closeWork_restated (s : State) (i : StationId) (w : Work) (st : Station) (c : Context) :
    s.closeWork i { w with st := st, c := c } = (s.closeWork i w).setStation i { st with ctx := some c } := by
  have stored : s.storeWork i { w with st := st, c := c }
      = (s.storeWork i w).setStation i { st with ctx := some c } := by
    simp [State.storeWork, State.setStation]
  unfold State.closeWork
  rw [stored]
  dsimp only
  cases w.poolLow <;> cases w.latched <;>
    simp only [State.raise_setStation, Bool.false_eq_true, if_false, if_true, State.placeLatched] <;> rfl

/-! ### A FILL of one entry at the station (R114) -/

section
variable {v : TemplateVersion} {e : FillEntry} {w : Work}

theorem FormTaken.openWork_v (h : FormTaken s i g v c) : (s.openWork i c).v = v := by
  obtain ⟨-, -, -, version⟩ := h
  exact version

/-- R112, R114: an entry that fails leaves its exception, with index 1. -/
theorem FormTaken.exec_error (h : FormTaken s i g v c) {r : Reason} (he : (s.openWork i c).fillEntry e = .error r) :
    exec (.recordJoinsQueue i (.fill [e] false false)) s
      = .next (s.replied g (i.val + 1) (stationException i 0x21 r none (some 1))) := by
  obtain ⟨hg, hr, hc, -⟩ := h
  rw [exec_fill hg hr, State.takeFill_stopped (s := s.hunting) hc (Work.fill_one_error (w := s.openWork i c) he)]
  have unchanged : s.hunting.closeWork i (s.openWork i c) = s.hunting :=
    State.closeWork_openWork (s := s.hunting) hc
  rw [unchanged]
  rfl

theorem FormTaken.exec_ok (h : FormTaken s i g v c) (he : (s.openWork i c).fillEntry e = .ok w) :
    exec (.recordJoinsQueue i (.fill [e] false false)) s
      = .next ((s.hunting.closeWork i w).place g (stationNumber i) (.done 0x21)) := by
  obtain ⟨hg, hr, hc, -⟩ := h
  rw [exec_fill hg hr, State.takeFill_done (s := s.hunting) hc (Work.fill_one_ok (w := s.openWork i c) he)]

/-- R114: an entry that changes the form and what is to be painted alone. -/
theorem FormTaken.exec_edited (h : FormTaken s i g v c) (he : (s.openWork i c).fillEntry e = .ok w)
    (edited : (s.openWork i c).Edited w) : exec (.recordJoinsQueue i (.fill [e] false false)) s
      = .next { s.replied g (i.val + 1) (.done 0x21) with
          stations := s.stations.set i { s.station i with ctx := some w.c, paint := w.st.paint } } := by
  have lock : w.st.lock = (s.station i).lock := (Work.fillEntry_filled he).lock
  have station : w.st = { s.station i with paint := w.st.paint } := by
    rw [edited.station, lock]
    rfl
  rw [h.exec_ok he, State.closeWork_quiet (s := s.hunting) (congrArg Work.freeRows edited)
    (congrArg Work.poolLow edited) (congrArg Work.latched edited), station]
  rfl

end

/-! ### TAG ROW (R121) -/

/-- R121: a tag that no row but the one at index `k` carries. -/
theorem tagRepeats_eraseIdx {tag k : Nat} {rows : List RowRec} : tagRepeats tag (rows.eraseIdx k) = false
    ↔ tag = 0 ∨ ∀ (j : Nat) r, j ≠ k → rows[j]? = some r → r.tag ≠ some tag := by
  simp only [tagRepeats, Bool.and_eq_false_iff, bne_eq_false_iff_eq, List.any_eq_false, beq_iff_eq,
    List.mem_eraseIdx_iff_getElem?]
  exact or_congr_right ⟨fun h j r hj hr => h r ⟨j, hj, hr⟩, fun h r ⟨j, hj, hr⟩ => h j r hj hr⟩

theorem modifyNth_eq_set {α : Type} {l : List α} {k : Nat} {a : α} (h : l[k]? = some a) (f : α → α) :
    modifyNth l k f = l.set k (f a) := by
  rw [modifyNth, List.modify_eq_set_getElem?, h]
  rfl

theorem Work.fillTag_error {w : Work} {p tag : Nat} (h : (p < 1 || w.rowCount < p || 65535 < tag) = true
    ∨ tagRepeats tag (w.c.rows.eraseIdx (p - 1)) = true) : w.fillTag p tag = .error .row := by
  unfold Work.fillTag
  split
  · rfl
  · rename_i range
    rw [if_pos (h.resolve_left range)]

theorem Work.fillTag_ok {w : Work} {p tag : Nat} {r : RowRec}
    (range : ¬(p < 1 || w.rowCount < p || 65535 < tag) = true)
    (free : tagRepeats tag (w.c.rows.eraseIdx (p - 1)) = false) (hr : w.c.rows[p - 1]? = some r) :
    w.fillTag p tag
      = .ok { w with c := { w.c with rows := w.c.rows.set (p - 1) { r with tag := tagOf tag } } } := by
  unfold Work.fillTag
  rw [if_neg range, free, modifyNth_eq_set hr]
  rfl

/-- Settles O34: the checks of R121 as one condition, and the row with its new tag. -/
theorem tagRowGivesTag : Obligations.TagRowGivesTag := by
  intro s i g v c p tag h good
  have passes : good ↔ ¬(p < 1 || c.rows.length < p || 65535 < tag) = true
      ∧ tagRepeats tag (c.rows.eraseIdx (p - 1)) = false := by
    simp only [tagRepeats_eraseIdx, Bool.or_eq_true, decide_eq_true_eq, good]
    constructor
    · rintro ⟨hlo, hhi, ht, hfree⟩
      exact ⟨by omega, hfree.imp_right fun free k r hk => free k r (by omega)⟩
    · rintro ⟨hrange, hfree⟩
      exact ⟨by omega, by omega, by omega, hfree.imp_right fun free k r hk => free k r (by omega)⟩
  refine ⟨fun bad => h.exec_error (e := .tagRow p tag) (Work.fillTag_error ?_), fun r ok hr => ?_⟩
  · rw [passes, not_and_or, not_not, Bool.not_eq_false] at bad
    exact bad
  · obtain ⟨range, free⟩ := passes.mp ok
    exact h.exec_edited (e := .tagRow p tag) (Work.fillTag_ok (w := s.openWork i c) range free hr) rfl

/-! ### The keyboard opened (R27, R37) -/

/-- The work once the keyboard is open in ENTRY, before the type-ahead queue is dealt with. -/
def Work.opened (w : Work) : Work :=
  { w with st := { w.st with state := .entry, lock := .none, paint := w.st.paint.add true .message } }

/-- R159: HELD, SENT or READ leave the indicator as the keyboard opens. -/
theorem Work.setLock_opened {w : Work} (h : KeyboardClosed w.st) : w.setLock .entry .none = w.opened :=
  if_neg (h.indicator_ne _ _)

theorem Work.openKeyboard_eq {w : Work} (h : KeyboardClosed w.st) (hs : w.snapshot = false) :
    w.openKeyboard = w.opened.dealWithTypeAhead := by
  unfold Work.openKeyboard
  rw [hs, Work.setLock_opened h]
  rfl

theorem Work.openKeyboard_drains {w : Work} (h : KeyboardClosed w.st) (hs : w.snapshot = false)
    (ho : w.st.overrun = false) : w.openKeyboard = w.opened.drain w.st.typeAhead := by
  rw [Work.openKeyboard_eq h hs]
  exact if_neg (by rw [Bool.not_eq_true]; exact ho)

/-! ### The modified flags (R124, R128) -/

theorem Work.fill_done {w w' : Work} {l : List FillEntry} (h : w.fillEntries 1 l = (w', none)) (u m : Bool) :
    w.fill l u m = (w'.fillOptions u m, none) := by
  unfold Work.fill
  rw [h]

theorem Work.fill_stopped {w w' : Work} {l : List FillEntry} {r : Reason} {k : Nat}
    (h : w.fillEntries 1 l = (w', some (r, k))) (u m : Bool) : w.fill l u m = (w', some (r, k)) := by
  unfold Work.fill
  rw [h]

/-- R112, R114: a FILL that has answered DONE has applied every one of its entries. -/
theorem exec_fill_done (h : Receiving s g) (hr : Ready s i) (hc : (s.station i).ctx = some c) {l : List FillEntry}
    {t : State} (ht : exec (.recordJoinsQueue i (.fill l false false)) s = .next t)
    (hd : t.general[g] = .occupied (i.val + 1) (.done 0x21)) :
    ∃ w, (s.openWork i c).fillEntries 1 l = (w, none)
      ∧ t = (s.hunting.closeWork i w).place g (stationNumber i) (.done 0x21) := by
  rw [exec_fill h hr] at ht
  obtain rfl := Host.Outcome.next.inj ht
  cases run : (s.openWork i c).fillEntries 1 l with
  | mk w f =>
    cases f with
    | none => exact ⟨w, rfl, State.takeFill_done (s := s.hunting) hc (Work.fill_done run false false)⟩
    | some f =>
      rw [State.takeFill_stopped (s := s.hunting) hc (Work.fill_stopped run false false), State.place_general] at hd
      simp [stationException] at hd

theorem State.takeResetModified_some (hc : (s.station i).ctx = some c) : s.takeResetModified i g
    = (s.setStation i { s.station i with ctx := some (clearModifiedIn c) }).doneRecord i g 0x25 := by
  unfold State.takeResetModified
  rw [hc]
  rfl

theorem State.takeResetModified_formless (hc : (s.station i).ctx = none) :
    s.takeResetModified i g = s.refuseRecord i g 0x25 .state none none := by
  unfold State.takeResetModified
  rw [hc]

/-- R124: an act whose last deed is CLEAR MODIFIED. -/
theorem State.closeWork_cleared (s : State) (i : StationId) (w : Work) :
    s.closeWork i (w.fillOptions false true)
      = (s.closeWork i w).setStation i { w.st with ctx := some (clearModifiedIn w.c) } :=
  State.closeWork_restated s i w w.st (clearModifiedIn w.c)

/-- Settles O36: CLEAR MODIFIED ends the act of a FILL, so that the entries show in what the FILL without it has left. -/
theorem modifiedFlagsAreCleared : Obligations.ModifiedFlagsAreCleared := by
  intro s i g h hr
  refine ⟨fun hc => ⟨?_, fun l u => ?_⟩, fun c hc => ⟨?_, ?_, fun l t c' ht hd hc' => ?_, fun hs _ hq ho => ?_⟩⟩
  · rw [exec_resetModified h hr, State.takeResetModified_formless (s := s.hunting) hc]
    rfl
  · exact (exec_fill h hr l u true).trans (congrArg _ (State.takeFill_formless (s := s.hunting) hc l u true))
  · rw [exec_resetModified h hr, State.takeResetModified_some (s := s.hunting) hc]
    rfl
  · refine (exec_fill h hr [] false true).trans (congrArg _ ?_)
    rw [State.takeFill_done (s := s.hunting) hc (Work.fill_nil (s.openWork i c) false true), State.closeWork_cleared,
      show s.hunting.closeWork i (s.openWork i c) = s.hunting from State.closeWork_openWork (s := s.hunting) hc]
    rfl
  · obtain ⟨w, run, rfl⟩ := exec_fill_done h hr hc ht hd
    refine (exec_fill h hr l false true).trans (congrArg _ ?_)
    have station : ((s.hunting.closeWork i w).place g (stationNumber i) (.done 0x21)).station i
        = { w.st with ctx := some w.c } := (State.closeWork_station _ w i).trans (if_pos rfl)
    rw [station] at hc' ⊢
    obtain rfl := Option.some.inj hc'
    rw [State.takeFill_done (s := s.hunting) hc (Work.fill_done run false true), State.closeWork_cleared]
    rfl
  · refine (exec_fill h hr [] true true).trans (congrArg _ ?_)
    rw [State.takeFill_done (s := s.hunting) hc (Work.fill_nil (s.openWork i c) true true)]
    let w : Work := { s.openWork i c with c := clearModifiedIn c }
    have unfrozen : w.snapshot = false := by
      change (s.snapshotSlot i).isSome = false
      rw [hr.snapshotSlot]
      rfl
    have drained : w.opened.drain w.st.typeAhead = w.opened := by
      rw [show w.st.typeAhead = [] from hq]
      exact congrArg w.opened.setTypeAhead hq.symm
    have opens : (s.openWork i c).fillOptions true true = w.opened := by
      rw [← drained, ← Work.openKeyboard_drains (.inl hs) unfrozen ho]
      change w.unlock = _
      unfold Work.unlock
      rw [show w.st.state = .held from hs]
    rw [opens, State.closeWork_quiet rfl rfl rfl]
    rfl

end Sys2Proof.Machine

/-! PROOFS. SET (R115 to R117): the reference a record names, its checks in their order, and the instance it writes. -/

namespace Sys2Proof.Machine

/-! ### References (R115) -/

section
variable {v : TemplateVersion} {c : Context} {ref : FieldRef} {j : Nat} {d : FieldDef}

theorem resolveRef_absent (hf : v.fixed.findIdx? (fun d => d.id == ref.id) = none)
    (hr : v.rowDefs.findIdx? (fun d => d.id == ref.id) = none) : resolveRef v c ref = .error .field := by
  simp only [resolveRef, hf, hr]

theorem resolveRef_fixed_at_row (hf : v.fixed.findIdx? (fun d => d.id == ref.id) = some j) (hd : v.fixed[j]? = some d)
    (hp : ref.position ≠ 0) : resolveRef v c ref = .error .field := by
  simp only [resolveRef, hf, hd, if_neg hp]

section
variable (hf : v.fixed.findIdx? (fun d => d.id == ref.id) = none)
  (hr : v.rowDefs.findIdx? (fun d => d.id == ref.id) = some j) (hd : v.rowDefs[j]? = some d)
include hf hr hd

theorem resolveRef_row_at_zero (hp : ref.position = 0) : resolveRef v c ref = .error .field := by
  simp only [resolveRef, hf, hr, hd, if_pos hp]

theorem resolveRef_row_beyond (hp : c.rows.length < ref.position) : resolveRef v c ref = .error .row := by
  have present : ref.position ≠ 0 := by omega
  simp only [resolveRef, hf, hr, hd, if_neg present, if_neg (Nat.not_le.mpr hp)]

end

/-! ### The instance a reference names -/

theorem Context.modInst_fixed_eq_set {x : FieldInst} (h : c.fixed[j]? = some x) (f : FieldInst → FieldInst) :
    c.modInst (.fixed j) f = { c with fixed := c.fixed.set j (f x) } := by
  unfold Context.modInst
  dsimp only
  rw [modifyNth_eq_set h]

theorem Context.modInst_row_eq_set {p : Nat} {r : RowRec} {x : FieldInst} (hp : 1 ≤ p) (hr : c.rows[p - 1]? = some r)
    (hx : r.insts[j]? = some x) (f : FieldInst → FieldInst) :
    c.modInst (.row p j) f = { c with rows := c.rows.set (p - 1) { r with insts := r.insts.set j (f x) } } := by
  unfold Context.modInst
  dsimp only
  rw [if_neg (by omega), modifyNth_eq_set hr, modifyNth_eq_set hx]

theorem Context.inst?_row_of_getElem? {p : Nat} {r : RowRec} {x : FieldInst} (hp : 1 ≤ p)
    (hr : c.rows[p - 1]? = some r) (hx : r.insts[j]? = some x) : c.inst? (.row p j) = some x := by
  unfold Context.inst? Context.row?
  dsimp only
  rw [if_neg (by omega), hr]
  exact hx

end

/-! ### The checks of a SET (R116) -/

section
variable {w : Work} {ref : FieldRef} {r : InstRef} {d : FieldDef} {text : Text}

theorem Work.fillSet_of_error {e : Reason} (h : resolveRef w.v w.c ref = .error e) : w.fillSet ref text = .error e := by
  unfold Work.fillSet
  rw [h]

theorem Work.fillSet_derived (h : resolveRef w.v w.c ref = .ok (r, d)) (hd : isDerived d = true) :
    w.fillSet ref text = .error .field := by
  unfold Work.fillSet
  rw [h]
  dsimp only
  rw [hostSettable, hd]
  rfl

theorem Work.fillSet_format (h : resolveRef w.v w.c ref = .ok (r, d)) (hd : isDerived d = false)
    (ht : hostText d text = none) : w.fillSet ref text = .error .format := by
  unfold Work.fillSet
  rw [h]
  dsimp only
  rw [hostSettable, hd, ht]
  rfl

theorem Work.fillSet_ok (h : resolveRef w.v w.c ref = .ok (r, d)) (hd : isDerived d = false)
    {t : Text × Option Int} (ht : hostText d text = some t) {x : FieldInst} (hx : w.c.inst? r = some x) :
    w.fillSet ref text = .ok (w.setInst r x t) := by
  unfold Work.fillSet
  rw [h]
  dsimp only
  rw [hostSettable, hd, ht, hx]
  rfl

end

/-! ### The instance a SET writes (R117) -/

/-- R108: an instance of a field without a status looks as its text. -/
theorem looksSame_of_not_derived {d : FieldDef} (h : isDerived d = false) (x x' : FieldInst) :
    looksSame (some d) x x' = (x.text == x'.text) := by
  have attr : reversed d x = reversed d x' := by
    simp only [reversed, paintedField, h, Bool.false_and, Bool.false_eq_true, if_false]
    split <;> rfl
  simp [looksSame, attr]

/-- The work with an instance put in place of another, its edit under the cursor ended (R117). -/
def Work.hostSet (w : Work) (r : InstRef) (x' : FieldInst) : Work :=
  (w.putInst r x').setEditing (w.c.editing && !decide (instAt w.v w.c w.c.cursor = some r))

section
variable {w : Work} {r : InstRef} {x x' : FieldInst}

theorem Work.hostSet_edited : w.Edited (w.hostSet r x') :=
  (w.putInst_edited r x').trans (Work.setEditing_edited _ _)

theorem Work.hostSet_v : (w.hostSet r x').v = w.v := w.putInst_v r x'

theorem Work.hostSet_c (hx : w.c.inst? r = some x) : (w.hostSet r x').c = { w.c.modInst r (fun _ => x') with
    editing := w.c.editing && !decide (instAt w.v w.c w.c.cursor = some r) } := by
  simp [Work.hostSet, Work.setEditing, hx]

theorem Work.hostSet_fixed_c {j : Nat} (hx : w.c.fixed[j]? = some x) : (w.hostSet (.fixed j) x').c = { w.c with
    fixed := w.c.fixed.set j x'
    editing := w.c.editing && !decide (instAt w.v w.c w.c.cursor = some (.fixed j)) } := by
  rw [Work.hostSet_c (r := .fixed j) hx, Context.modInst_fixed_eq_set hx]

theorem Work.hostSet_row_c {p j : Nat} {y : RowRec} (hp : 1 ≤ p) (hy : w.c.rows[p - 1]? = some y)
    (hx : y.insts[j]? = some x) : (w.hostSet (.row p j) x').c = { w.c with
      rows := w.c.rows.set (p - 1) { y with insts := y.insts.set j x' }
      editing := w.c.editing && !decide (instAt w.v w.c w.c.cursor = some (.row p j)) } := by
  rw [Work.hostSet_c (Context.inst?_row_of_getElem? hp hy hx), Context.modInst_row_eq_set hp hy hx]

/-- R51: what a SET gives to paint: the instance's entry where its text has changed. -/
theorem Work.hostSet_paint {d : FieldDef} (hx : w.c.inst? r = some x) (hd : w.v.defOf r = some d)
    (hn : isDerived d = false) : (w.hostSet r x').st.paint
      = if x.text = x'.text then w.st.paint
        else (({ w with c := w.c.modInst r (fun _ => x') } : Work).dirtyInst r).st.paint := by
  unfold Work.hostSet Work.setEditing Work.putInst
  rw [hx, hd]
  dsimp only
  rw [looksSame_of_not_derived hn]
  by_cases same : x.text = x'.text
  · rw [if_pos (beq_iff_eq.mpr same), if_pos same]
  · rw [if_neg (by simpa using same), if_neg same]

/-- R51: the entry of a row instance whose row is shown. -/
theorem Work.hostSet_slot {p j : Nat} {y : RowRec} (hp : 1 ≤ p) (hy : w.c.rows[p - 1]? = some y)
    (hx : y.insts[j]? = some x) (above : w.c.first ≤ p) (below : p < w.c.first + w.v.group.visible) :
    (({ w with c := w.c.modInst (.row p j) (fun _ => x') } : Work).dirtyInst (.row p j)).st.paint
      = w.st.paint.add true (.slot (p + 1 - w.c.first) j) := by
  rw [Context.modInst_row_eq_set hp hy hx]
  unfold Work.dirtyInst
  dsimp only
  rw [if_pos (by simpa [Context.inWindow] using ⟨above, below⟩)]
  rfl

theorem Work.setInst_eq (hx : w.c.inst? r = some x) (t : Text × Option Int) : w.setInst r x t
    = if t.2 = x.value then w.hostSet r (setByHost x t) else (w.hostSet r (setByHost x t)).tally (changedRow r) := by
  have kept : (w.putInst r (setByHost x t)).c.editing = w.c.editing := by
    rw [Work.putInst_c, hx, Option.isSome_some, if_pos rfl, Context.modInst_others]
  have ended : (if instAt w.v w.c w.c.cursor == some r then (w.putInst r (setByHost x t)).setEditing false
      else w.putInst r (setByHost x t)) = w.hostSet r (setByHost x t) := by
    unfold Work.hostSet
    by_cases under : instAt w.v w.c w.c.cursor = some r
    · rw [if_pos (beq_iff_eq.mpr under), decide_eq_true under, Bool.not_true, Bool.and_false]
    · rw [if_neg (by simpa using under), decide_eq_false under, Bool.not_false, Bool.and_true, ← kept]
      rfl
  unfold Work.setInst
  dsimp only
  rw [ended]

theorem Work.setInst_edited (hx : w.c.inst? r = some x) (t : Text × Option Int) : w.Edited (w.setInst r x t) := by
  rw [Work.setInst_eq hx]
  split
  · exact Work.hostSet_edited
  · exact Work.hostSet_edited.trans (Work.tally_edited _ _)

theorem Tallied.setInst (hx : w.c.inst? r = some x) (t : Text × Option Int) :
    Tallied w.v (w.hostSet r (setByHost x t)).c (w.setInst r x t).c := by
  rw [Work.setInst_eq hx]
  split
  · exact .refl _ _
  · have tallied := Tallied.tally (w.hostSet r (setByHost x t)) (changedRow r)
    rw [Work.hostSet_v] at tallied
    exact tallied

/-- R94: a SET of a fixed instance calls for no computation. -/
theorem Work.setInst_fixed {j : Nat} (hx : w.c.inst? (.fixed j) = some x) (t : Text × Option Int) :
    w.setInst (.fixed j) x t = w.hostSet (.fixed j) (setByHost x t) := by
  rw [Work.setInst_eq hx, changedRow, Work.tally_nil, ite_self]

end

/-! ### SET at the station -/

theorem State.replied_set_station (s : State) (g : GenId) (i : StationId) (r : Inbound) (st : Station) :
    ({ s.replied g (i.val + 1) r with stations := s.stations.set i st } : State).station i = st := by
  simp [State.station]

section
variable {s : State} {i : StationId} {g : GenId} {v : TemplateVersion} {c : Context} {ref : FieldRef} {text : Text}
  {j : Nat} {d : FieldDef} {t : Text × Option Int} {x : FieldInst}

/-- R116, R117: a SET of a fixed instance. -/
theorem FormTaken.exec_set_fixed (h : FormTaken s i g v c) (found : resolveRef v c ref = .ok (.fixed j, d))
    (hd : v.fixed[j]? = some d) (hn : isDerived d = false) (ht : hostText d text = some t)
    (hx : c.fixed[j]? = some x) : exec (.set i ref text) s
      = .next { s.replied g (i.val + 1) (.done 0x21) with
          stations := s.stations.set i { s.station i with
            ctx := some { c with
              fixed := c.fixed.set j (setByHost x t)
              editing := c.editing && !decide (instAt v c c.cursor = some (.fixed j)) }
            paint := if x.text = t.1 then (s.station i).paint else (s.station i).paint.add true (.field j) } } := by
  obtain rfl := h.openWork_v
  let w : Work := s.openWork i c
  have inst : w.c.inst? (.fixed j) = some x := hx
  have applied : w.fillSet ref text = .ok (w.setInst (.fixed j) x t) := Work.fillSet_ok found hn ht inst
  have painted := Work.hostSet_paint (w := w) (x' := setByHost x t) inst hd hn
  have written := Work.hostSet_fixed_c (w := w) (x' := setByHost x t) hx
  rw [Work.setInst_fixed inst] at applied
  refine (h.exec_edited (e := .set ref text) applied Work.hostSet_edited).trans ?_
  rw [written, painted]
  rfl

/-- R116, R117, R94: a SET of a row instance. -/
theorem FormTaken.exec_set_row {p : Nat} {r : RowRec} (h : FormTaken s i g v c)
    (found : resolveRef v c ref = .ok (.row p j, d)) (hd : v.rowDefs[j]? = some d) (hn : isDerived d = false)
    (ht : hostText d text = some t) (hp : 1 ≤ p) (hr : c.rows[p - 1]? = some r) (hx : r.insts[j]? = some x) :
    let paint := (s.station i).paint
    let rows := c.rows.set (p - 1) { r with insts := r.insts.set j (setByHost x t) }
    ∃ u c', exec (.set i ref text) s = .next u
      ∧ u = { s.replied g (i.val + 1) (.done 0x21) with stations := s.stations.set i (u.station i) }
      ∧ u.station i = { s.station i with ctx := some c', paint := (u.station i).paint }
      ∧ c' = { c with
          fixed := c'.fixed, rows := c'.rows
          editing := c.editing && !decide (instAt v c c.cursor = some (.row p j)) }
      ∧ FixedKept v c.fixed c'.fixed ∧ List.Forall₂ (RowKept v) rows c'.rows
      ∧ (x.value = t.2 → c'.fixed = c.fixed ∧ c'.rows = rows
        ∧ (x.text = t.1 → (u.station i).paint = paint)
        ∧ (x.text ≠ t.1 → c.first ≤ p → p < c.first + v.group.visible →
          (u.station i).paint = paint.add true (.slot (p + 1 - c.first) j))) := by
  intro paint rows
  obtain rfl := h.openWork_v
  let w : Work := s.openWork i c
  have inst : w.c.inst? (.row p j) = some x := Context.inst?_row_of_getElem? hp hr hx
  have applied : w.fillSet ref text = .ok (w.setInst (.row p j) x t) := Work.fillSet_ok found hn ht inst
  have painted := Work.hostSet_paint (w := w) (x' := setByHost x t) inst hd hn
  have written := Work.hostSet_row_c (w := w) (x' := setByHost x t) hp hr hx
  have tallied := Tallied.setInst (w := w) inst t
  rw [written] at tallied
  have station := State.replied_set_station s g i (.done 0x21)
  refine ⟨_, (w.setInst (.row p j) x t).c,
    h.exec_edited (e := .set ref text) applied (Work.setInst_edited inst t), ?_, ?_,
    tallied.others, tallied.fixedKept, tallied.rowKept, fun same => ?_⟩
  · rw [station]
  · rw [station]
  · rw [station, Work.setInst_eq inst, if_pos same.symm, written, painted]
    refine ⟨rfl, rfl, fun text => if_pos text, fun text above below => (if_neg text).trans ?_⟩
    exact Work.hostSet_slot (w := w) hp hr hx above below

end

/-- Settles O32: the reference first, then the text, then the instance written. -/
theorem setWritesInstance : Obligations.SetWritesInstance := by
  intro s i g v c ref text h refused inFixed inRow paint
  have version := h.openWork_v
  have fails : ∀ {e : Reason}, resolveRef v c ref = .error e → refused e := fun {e} he =>
    h.exec_error (e := .set ref text) (Work.fillSet_of_error (by rw [version]; exact he))
  have derived : ∀ {r d}, resolveRef v c ref = .ok (r, d) → isDerived d = true → refused .field := fun {r d} he hd =>
    h.exec_error (e := .set ref text) (Work.fillSet_derived (by rw [version]; exact he) hd)
  have malformed : ∀ {r d}, resolveRef v c ref = .ok (r, d) → isDerived d = false → hostText d text = none →
      refused .format := fun {r d} he hd ht =>
    h.exec_error (e := .set ref text) (Work.fillSet_format (by rw [version]; exact he) hd ht)
  refine ⟨fun hf hr => fails (resolveRef_absent hf hr), fun j d hf hd => ?_, fun j d hf hr hd => ?_⟩
  · exact ⟨fun hp => fails (resolveRef_fixed_at_row hf hd hp),
      fun hp hn => derived (resolveRef_of_fixed hf hd hp) hn,
      fun hp hn ht => malformed (resolveRef_of_fixed hf hd hp) hn ht,
      fun t x hp hn ht hx => h.exec_set_fixed (resolveRef_of_fixed hf hd hp) hd hn ht hx⟩
  · refine ⟨fun hp => fails (resolveRef_row_at_zero hf hr hd hp), fun hp => fails (resolveRef_row_beyond hf hr hd hp),
      fun hlo hhi hn => derived (resolveRef_of_row hf hr hd hlo hhi) hn,
      fun hlo hhi hn ht => malformed (resolveRef_of_row hf hr hd hlo hhi) hn ht,
      fun t r x hlo hn ht hrow hx => ?_⟩
    have hhi : ref.position ≤ c.rows.length := by
      have := (List.getElem?_eq_some_iff.mp hrow).1
      omega
    exact h.exec_set_row (resolveRef_of_row hf hr hd hlo hhi) hd hn ht hlo hrow hx

end Sys2Proof.Machine

/-! PROOFS. An edit that an entry of a FILL leaves or lets go on (R123), and CURSOR (R122). -/

namespace Sys2Proof.Machine

/-! ### What an abandoned edit shows (R123) -/

theorem modifyNth_eq_self {α : Type} {l : List α} {k : Nat} {f : α → α} (h : ∀ a, l[k]? = some a → f a = a) :
    modifyNth l k f = l := by
  cases ha : l[k]? with
  | none => exact List.modify_eq_self (List.getElem?_eq_none_iff.mp ha)
  | some a =>
    obtain ⟨hlt, rfl⟩ := List.getElem?_eq_some_iff.mp ha
    rw [modifyNth_eq_set ha, h _ ha, List.set_getElem_self]

/-- A change that keeps the instance a reference names, if it names one, keeps the form. -/
theorem Context.modInst_eq_self {c : Context} {r : InstRef} {f : FieldInst → FieldInst}
    (h : ∀ x, c.inst? r = some x → f x = x) : c.modInst r f = c := by
  cases r with
  | fixed j =>
    have kept : modifyNth c.fixed j f = c.fixed := modifyNth_eq_self h
    simp only [Context.modInst, kept]
  | row p j =>
    unfold Context.modInst
    dsimp only
    split
    · rfl
    · rename_i hp
      have kept : modifyNth c.rows (p - 1) (fun x => { x with insts := modifyNth x.insts j f }) = c.rows := by
        refine modifyNth_eq_self fun y hy => ?_
        have inside : modifyNth y.insts j f = y.insts :=
          modifyNth_eq_self fun x hx => h x (Context.inst?_row_of_getElem? (by omega) hy hx)
        rw [inside]
      rw [kept]

theorem Context.modInst_editing (c : Context) (r : InstRef) (f : FieldInst → FieldInst) (b : Bool) :
    ({ c with editing := b } : Context).modInst r f = { c.modInst r f with editing := b } := by
  refine (Context.modInst_flags c r f b c.adjusted).trans ?_
  rw [Context.modInst_others]

theorem abandoned_others (v : TemplateVersion) (c : Context) (r : InstRef) : abandoned v c r
    = { c with fixed := (abandoned v c r).fixed, rows := (abandoned v c r).rows, editing := false } := by
  unfold abandoned
  rw [Context.modInst_others]

section
variable {w : Work} {r : InstRef}

theorem Work.abandonEdit_c : (w.abandonEdit r).c = abandoned w.v w.c r := by
  have flagged : ∀ q, (w.setEditing false).c.inst? q = w.c.inst? q := fun q => by cases q <;> rfl
  unfold Work.abandonEdit abandoned
  dsimp only
  rw [show (w.setEditing false).v = w.v from rfl, flagged]
  cases hd : w.v.defOf r with
  | none =>
    dsimp only
    rw [Context.modInst_eq_self fun _ _ => rfl]
    rfl
  | some d =>
    cases hx : w.c.inst? r with
    | none =>
      dsimp only
      rw [Context.modInst_eq_self fun x hx' => by rw [hx] at hx'; cases hx']
      rfl
    | some x =>
      dsimp only
      by_cases numeric : isNumeric d = true
      · rw [if_pos numeric, Work.putInst_c, flagged, hx, Option.isSome_some, if_pos rfl, Context.modInst_of_inst hx,
          if_pos numeric]
        exact Context.modInst_editing _ _ _ _
      · rw [if_neg numeric, Context.modInst_eq_self fun x _ => if_neg numeric]
        rfl

theorem Work.abandonEdit_edited : w.Edited (w.abandonEdit r) := by
  unfold Work.abandonEdit
  dsimp only
  split
  · split
    · exact (w.setEditing_edited false).trans (Work.putInst_edited _ _ _)
    · exact w.setEditing_edited false
  · exact w.setEditing_edited false

/-! ### Where an entry leaves the instance being edited (R123) -/

theorem Work.leaveInst_idle (h : w.c.editing = false) (before : Option InstRef) : w.leaveInst before = w := by
  unfold Work.leaveInst
  rw [h]
  cases before <;> rfl

theorem Work.leaveInst_stays (h : instAt w.v w.c w.c.cursor = some r) : w.leaveInst (some r) = w := by
  unfold Work.leaveInst
  dsimp only
  rw [if_neg (by simp [h])]

theorem Work.leaveInst_leaves (he : w.c.editing = true) (h : instAt w.v w.c w.c.cursor ≠ some r) :
    w.leaveInst (some r) = w.abandonEdit r := by
  unfold Work.leaveInst
  dsimp only
  rw [if_pos (by simp [he, h])]

theorem Work.leaveInst_edited (before : Option InstRef) : w.Edited (w.leaveInst before) := by
  unfold Work.leaveInst
  split
  · exact .refl w
  · split
    · exact Work.abandonEdit_edited
    · exact .refl w

theorem Work.leaveInst_others (before : Option InstRef) : (w.leaveInst before).c = { w.c with
    fixed := (w.leaveInst before).c.fixed, rows := (w.leaveInst before).c.rows
    editing := (w.leaveInst before).c.editing } := by
  unfold Work.leaveInst
  split
  · rfl
  · split
    · rw [Work.abandonEdit_c, abandoned_others]
    · rfl

end

/-! ### What is painted again (R51, R75, R147) -/

section
variable (p : Paint) (b : Bool)

/-- R147: an entry inserted only where the list has it not. -/
theorem Paint.due_of_listed (d : Dirty) : ((if p.dirty.contains d then p else p.append b d).resume ≠ none
    ∨ d ∈ (if p.dirty.contains d then p else p.append b d).dirty) := by
  split
  · rename_i listed
    exact .inr (List.contains_iff_mem.mp listed)
  · exact p.append_due b d

theorem Paint.insert_field_due (j : Nat) :
    (p.insert b (.field j)).resume ≠ none ∨ .field j ∈ (p.insert b (.field j)).dirty := p.due_of_listed b (.field j)

theorem Paint.insert_slot_due (k j : Nat) : (p.insert b (.slot k j)).resume ≠ none
    ∨ .band ∈ (p.insert b (.slot k j)).dirty ∨ .slot k j ∈ (p.insert b (.slot k j)).dirty := by
  unfold Paint.insert
  dsimp only
  by_cases listed : p.dirty.contains .band = true
  · rw [if_pos listed]
    have band : Dirty.band ∈ p.dirty := List.contains_iff_mem.mp listed
    refine .inr (.inl ?_)
    split
    · split <;> exact band
    · exact band
  · rw [if_neg listed]
    exact (p.due_of_listed b (.slot k j)).imp_right .inr

/-- R150: an entry that a full repaint leaves out is painted by that repaint. -/
theorem Paint.add_cases (d : Dirty) : p.add b d = p.insert b d ∨ (p.add b d).resume ≠ none := by
  unfold Paint.add
  split
  · rename_i r hr
    split
    · exact .inl rfl
    · exact .inr (by simp [hr])
  · exact .inl rfl

theorem Paint.add_field_due (j : Nat) : (p.add b (.field j)).resume ≠ none ∨ .field j ∈ (p.add b (.field j)).dirty := by
  rcases p.add_cases b (.field j) with h | h
  · rw [h]
    exact p.insert_field_due b j
  · exact .inl h

theorem Paint.add_slot_due (k j : Nat) : (p.add b (.slot k j)).resume ≠ none
    ∨ .band ∈ (p.add b (.slot k j)).dirty ∨ .slot k j ∈ (p.add b (.slot k j)).dirty := by
  rcases p.add_cases b (.slot k j) with h | h
  · rw [h]
    exact p.insert_slot_due b k j
  · exact .inl h

/-- R145: at a station with a form no entry takes the cursor-pending flag away. -/
theorem Paint.add_pending (h : p.cursorPending = true) (d : Dirty) : (p.add true d).cursorPending = true := by
  have append : ∀ (q : Paint), q.cursorPending = true → ∀ e, (q.append true e).cursorPending = true := fun q hq e => by
    unfold Paint.append
    split
    · exact hq
    · rfl
  have insert : (p.insert true d).cursorPending = true := by
    unfold Paint.insert
    split
    case h_1 =>
      split
      · exact h
      · refine append _ ?_ _
        exact h
    case h_2 =>
      split
      · split
        · split <;> exact h
        · exact h
      · split
        · exact h
        · exact append _ h _
    all_goals
      split
      · exact h
      · exact append _ h _
  unfold Paint.add
  split
  · split
    · exact insert
    · exact h
  · exact insert

end

section
variable {w : Work} {r : InstRef}

theorem Work.dirtyInst_painted : PaintedAgain w.v w.c (w.dirtyInst r).st.paint r := by
  cases r with
  | fixed j => exact w.st.paint.add_field_due true j
  | row q j =>
    by_cases shown : w.c.inWindow w.v.group q = true
    · unfold Work.dirtyInst
      dsimp only
      rw [if_pos shown]
      exact (w.st.paint.add_slot_due true (q + 1 - w.c.first) j).imp_right fun due _ _ => due
    · refine .inr fun above below => absurd ?_ shown
      simpa [Context.inWindow] using ⟨above, below⟩

theorem Work.dirtyInst_pending (h : w.st.paint.cursorPending = true) :
    (w.dirtyInst r).st.paint.cursorPending = true := by
  unfold Work.dirtyInst
  split
  · exact Paint.add_pending _ h _
  · split
    · exact Paint.add_pending _ h _
    · exact h

theorem Work.putInst_pending (h : w.st.paint.cursorPending = true) (x : FieldInst) :
    (w.putInst r x).st.paint.cursorPending = true := by
  unfold Work.putInst
  split
  · dsimp only
    split
    · exact h
    · exact Work.dirtyInst_pending h
  · exact h

theorem Work.leaveInst_pending (h : w.st.paint.cursorPending = true) (before : Option InstRef) :
    (w.leaveInst before).st.paint.cursorPending = true := by
  unfold Work.leaveInst Work.abandonEdit
  split
  · exact h
  · split
    · dsimp only
      split
      · split
        · exact Work.putInst_pending (w := w.setEditing false) h _
        · exact h
      · exact h
    · exact h

/-- R51: an instance put in place of one with another text is painted again. -/
theorem Work.putInst_painted {x x' : FieldInst} (hx : w.c.inst? r = some x) (ht : x'.text ≠ x.text) :
    PaintedAgain w.v (w.putInst r x').c (w.putInst r x').st.paint r := by
  have other : looksSame (w.v.defOf r) x x' = false := by simp [looksSame, ht.symm]
  have put : w.putInst r x' = ({ w with c := w.c.modInst r (fun _ => x') } : Work).dirtyInst r := by
    unfold Work.putInst
    rw [hx]
    dsimp only
    rw [other]
    rfl
  have form : (w.putInst r x').c = w.c.modInst r (fun _ => x') := by
    rw [Work.putInst_c, hx, Option.isSome_some, if_pos rfl]
  rw [form, put]
  exact Work.dirtyInst_painted (w := { w with c := w.c.modInst r (fun _ => x') })

/-- R123, R51: an abandoned edit that shows another text is painted again. -/
theorem Work.abandonEdit_painted
    (h : ((w.abandonEdit r).c.inst? r).map FieldInst.text ≠ (w.c.inst? r).map FieldInst.text) :
    PaintedAgain w.v (w.abandonEdit r).c (w.abandonEdit r).st.paint r := by
  have flagged : ∀ q, (w.setEditing false).c.inst? q = w.c.inst? q := fun q => by cases q <;> rfl
  unfold Work.abandonEdit at h ⊢
  dsimp only at h ⊢
  rw [show (w.setEditing false).v = w.v from rfl] at h ⊢
  split at h
  · rename_i d x hd hx
    split at h
    · rename_i numeric
      rw [if_pos numeric]
      refine Work.putInst_painted (w := w.setEditing false) hx fun same => h ?_
      rw [Work.putInst_c, hx, Option.isSome_some, if_pos rfl, Context.inst?_written hx, ← flagged, hx, Option.map_some,
        Option.map_some, same]
    · exact absurd (congrArg _ (flagged r)) h
  · exact absurd (congrArg _ (flagged r)) h

end

/-! ### CURSOR (R122) -/

/-- R74, R122: the window first row once the row of an instance is shown. -/
def shownFirst (v : TemplateVersion) (c : Context) (r : InstRef) : Nat :=
  match r with
  | .fixed _ => c.first
  | .row p _ => if c.inWindow v.group p then c.first else clampFirst v.group c.rows.length p

section
variable {w : Work} {r : InstRef} {ref : FieldRef} {d : FieldDef}

theorem Work.showRow_eq : w.showRow r = w.setFirst (shownFirst w.v w.c r) := by
  have stays : w.setFirst w.c.first = w := if_pos rfl
  unfold Work.showRow shownFirst
  cases r with
  | fixed j => exact stays.symm
  | row p j =>
    dsimp only
    split
    · exact stays.symm
    · rfl

/-- The work of CURSOR before the edit is seen to. -/
def Work.cursorTo (w : Work) (r : InstRef) : Work :=
  (w.setFirst (shownFirst w.v w.c r)).moveCursor (fieldStart w.v { w.c with first := shownFirst w.v w.c r } r)

theorem Work.cursorTo_c : (w.cursorTo r).c = { w.c with
    first := shownFirst w.v w.c r, cursor := fieldStart w.v { w.c with first := shownFirst w.v w.c r } r } := by
  rw [Work.cursorTo, Work.moveCursor_c, Work.setFirst_c]

theorem Work.cursorTo_v : (w.cursorTo r).v = w.v := by rw [Work.cursorTo, Work.moveCursor_v, Work.setFirst_v]

theorem Work.cursorTo_edited : w.Edited (w.cursorTo r) :=
  (w.setFirst_edited _).trans (Work.moveCursor_edited _ _)

/-- R75: the cursor that moves is shown again. -/
theorem Work.cursorTo_pending (h : (w.cursorTo r).c.cursor ≠ w.c.cursor) :
    (w.cursorTo r).st.paint.cursorPending = true := by
  rw [Work.cursorTo_c] at h
  exact Work.moveCursor_pending _ (by rwa [Work.setFirst_c])

/-- R74, R75: where neither the window nor the cursor moves nothing is painted. -/
theorem Work.cursorTo_self (hf : (w.cursorTo r).c.first = w.c.first) (hq : (w.cursorTo r).c.cursor = w.c.cursor) :
    w.cursorTo r = w := by
  rw [Work.cursorTo_c] at hf hq
  dsimp only at hf hq
  unfold Work.cursorTo
  rw [hq, hf, show w.setFirst w.c.first = w from if_pos rfl]
  exact if_pos rfl

theorem Work.fillCursor_of_error {e : Reason} (h : resolveRef w.v w.c ref = .error e) : w.fillCursor ref = .error e := by
  unfold Work.fillCursor
  rw [h]

theorem Work.fillCursor_ok (h : resolveRef w.v w.c ref = .ok (r, d)) :
    w.fillCursor ref = .ok ((w.cursorTo r).leaveInst (instAt w.v w.c w.c.cursor)) := by
  unfold Work.fillCursor
  rw [h]
  dsimp only
  rw [Work.showRow_eq, Work.setFirst_v, Work.setFirst_c]
  rfl

end

/-- Settles O35: the window and the cursor move, and then the edit is seen to. -/
theorem cursorMovesToField : Obligations.CursorMovesToField := by
  intro s i g v c ref h refused inFixed inRow moves
  have version := h.openWork_v
  have fails : ∀ {e : Reason}, resolveRef v c ref = .error e → refused e := fun {e} he =>
    h.exec_error (e := .cursor ref) (Work.fillCursor_of_error (by rw [version]; exact he))
  have applied : ∀ {r d}, resolveRef v c ref = .ok (r, d) →
      moves (shownFirst v c r) (fieldStart v { c with first := shownFirst v c r } r) := by
    intro r d found
    subst version
    let w : Work := s.openWork i c
    have taken : w.fillCursor ref = .ok ((w.cursorTo r).leaveInst (instAt w.v w.c w.c.cursor)) :=
      Work.fillCursor_ok found
    have moved : (w.cursorTo r).c = { c with
      first := shownFirst w.v c r, cursor := fieldStart w.v { c with first := shownFirst w.v c r } r } := Work.cursorTo_c
    have editing : (w.cursorTo r).c.editing = c.editing := by rw [moved]
    have cursor : (w.cursorTo r).c.cursor = fieldStart w.v { c with first := shownFirst w.v c r } r := by rw [moved]
    have others := (w.cursorTo r).leaveInst_others (instAt w.v w.c w.c.cursor)
    rw [moved] at others
    have station := State.replied_set_station s g i (.done 0x21)
    refine ⟨_, ((w.cursorTo r).leaveInst (instAt w.v w.c w.c.cursor)).c, h.exec_edited (e := .cursor ref) taken
      (Work.cursorTo_edited.trans (Work.leaveInst_edited _)), ?_, ?_, others, fun idle => ?_, fun q busy under => ?_,
      fun other => ?_, fun idle hq hf => ?_⟩
    · rw [station]
    · rw [station]
    · rw [Work.leaveInst_idle (editing.trans idle), moved]
      exact ⟨rfl, rfl, idle⟩
    · rw [show instAt w.v w.c w.c.cursor = some q from under, station]
      refine ⟨fun stays => ?_, fun leaves => ?_⟩
      · rw [Work.leaveInst_stays (by rw [moved, Work.cursorTo_v]; exact stays), moved]
      · rw [Work.leaveInst_leaves (editing.trans busy) (by rw [moved, Work.cursorTo_v]; exact leaves)]
        refine ⟨by rw [Work.abandonEdit_c, moved, Work.cursorTo_v], fun text => ?_⟩
        have same : (w.cursorTo r).c.inst? q = c.inst? q := by
          rw [moved]
          cases q <;> rfl
        have painted := Work.abandonEdit_painted (w := w.cursorTo r) (r := q) (by rwa [same])
        rwa [Work.cursorTo_v] at painted
    · rw [station]
      exact Work.leaveInst_pending (Work.cursorTo_pending (by rw [cursor]; exact other)) _
    · rw [station, Work.leaveInst_idle (editing.trans idle), Work.cursorTo_self (by rw [moved]; exact hf)
        (by rw [moved]; exact hq)]
      rfl
  refine ⟨fun hf hr => fails (resolveRef_absent hf hr), fun j d hf hd => ?_, fun j d hf hr hd => ?_⟩
  · refine ⟨fun hp => fails (resolveRef_fixed_at_row hf hd hp), fun hp => ?_⟩
    have goal := applied (resolveRef_of_fixed hf hd hp)
    simp only [shownFirst, fieldStart, hd] at goal
    exact goal
  · intro p first
    refine ⟨fun hp => fails (resolveRef_row_at_zero hf hr hd hp), fun hp => fails (resolveRef_row_beyond hf hr hd hp),
      fun hlo hhi => ?_⟩
    have goal := applied (resolveRef_of_row hf hr hd hlo hhi)
    have shown : shownFirst v c (.row ref.position j) = first := by
      have range : c.inWindow v.group ref.position = true ↔ c.first ≤ p ∧ p < c.first + v.group.visible := by
        simp [Context.inWindow, p]
      simp only [shownFirst, range, clampFirst, windowBound, Nat.max_eq_right hlo, first, p]
    rw [shown] at goal
    simp only [fieldStart, hd] at goal
    exact goal

end Sys2Proof.Machine

/-! PROOFS. APPEND ROW, INSERT ROW and DELETE ROW (R118 to R120): their checks in order, the row that joins or leaves, and
the edit that goes on or is abandoned (R123). -/

namespace Sys2Proof.Machine

/-! ### The edit behind a row that joins or leaves (R123) -/

/-- R123: an edit is abandoned behind the Tally Unit as it is before it. -/
theorem Tallied.abandoned {v : TemplateVersion} {a b : Context} (t : Tallied v a b) (r : InstRef) :
    Tallied v (Machine.abandoned v a r) (Machine.abandoned v b r) := by
  have insts : ∀ c q, (Machine.abandoned v c r).inst? q = if q = r then (c.inst? r).map (fun x => match v.defOf r with
      | some d => if isNumeric d then { x with text := displayForm (numForm d) x.value } else x
      | none => x) else c.inst? q := fun c q => by
    rw [← Context.inst?_modInst]
    cases q <;> rfl
  have flags : ∀ c, (∀ q x, (Machine.abandoned v c r).inst? q = some x → x.modified = false)
      ↔ ∀ q x, c.inst? q = some x → x.modified = false := fun c => by
    have same : ∀ q, ((Machine.abandoned v c r).inst? q).map FieldInst.modified
        = (c.inst? q).map FieldInst.modified := fun q => by
      rw [insts]
      split
      · rename_i e
        rw [e, Option.map_map]
        refine Option.map_congr fun x _ => ?_
        simp only [Function.comp_apply]
        split
        · split <;> rfl
        · rfl
      · rfl
    have clear : ∀ o : Option FieldInst, (∀ x, o = some x → x.modified = false)
        ↔ ∀ m, o.map FieldInst.modified = some m → m = false := fun o => by cases o <;> simp
    simp only [clear, same]
  refine ⟨?_, ?_, ?_, fun q d hd hn => ?_, fun h => (flags b).mpr (t.unmodified ((flags a).mp h))⟩
  · rw [abandoned_others v b, abandoned_others v a, t.others]
  · exact ((Context.modInst_fixed_length _ _ _).trans t.fixed).trans (Context.modInst_fixed_length _ _ _).symm
  · exact ((Context.modInst_shapes _ _ _).trans t.shapes).trans (Context.modInst_shapes _ _ _).symm
  · rw [insts, insts]
    split
    · rename_i e
      rw [t.entered r d (e ▸ hd) hn]
    · exact t.entered q d hd hn

section
variable {w : Work} {b : Context}

theorem Work.leaveInst_shapes (w : Work) (before : Option InstRef) :
    (w.leaveInst before).c.rows.map RowRec.shape = w.c.rows.map RowRec.shape := by
  unfold Work.leaveInst
  split
  · rfl
  · split
    · rw [Work.abandonEdit_c]
      exact Context.modInst_shapes _ _ _
    · rfl

/-- R123: with the Tally Unit's work between, the edit goes on where the cursor is still in its instance. -/
theorem EditGoesOn.leaveInst {v : TemplateVersion} (version : w.v = v) (t : Tallied v b w.c)
    (editing : b.editing = true) (r : InstRef) : EditGoesOn v b r (w.leaveInst (some r)).c := by
  subst version
  have frame : SameFrame b w.c := ⟨t.rows, by rw [t.others], by rw [t.others]⟩
  have under : instAt w.v w.c w.c.cursor = instAt w.v b b.cursor := by rw [instAt_frame frame, frame.cursor]
  unfold EditGoesOn
  by_cases stays : instAt w.v b b.cursor = some r
  · rw [if_pos stays, Work.leaveInst_stays (under.trans stays)]
    exact ⟨t.editing, t.fixedKept, t.rowKept⟩
  · have leaves := (t.abandoned r)
    rw [if_neg stays, Work.leaveInst_leaves (t.editing.trans editing) (under ▸ stays), Work.abandonEdit_c]
    exact ⟨rfl, leaves.fixedKept, leaves.rowKept⟩

/-- The tag and the origin of each row, from the rows' shapes. -/
theorem rowTags_of_shapes {l m : List RowRec} (h : l.map RowRec.shape = m.map RowRec.shape) :
    l.map (fun r => (r.tag, r.operatorCreated)) = m.map (fun r => (r.tag, r.operatorCreated)) := by
  have cut : ∀ l : List RowRec, l.map (fun r => (r.tag, r.operatorCreated))
      = (l.map RowRec.shape).map (fun x => (x.1, x.2.1)) := fun l => by
    rw [List.map_map]
    rfl
  rw [cut, cut, h]

end

/-! ### An entry that joins or removes a row, at the station -/

section
variable {s : State} {i : StationId} {g : GenId} {v : TemplateVersion} {c : Context} {e : FillEntry} {w : Work}

/-- R31, R32: an entry that changes the form, what is to be painted and the row pool. -/
structure RowEntryTaken (s t : State) (i : StationId) (g : GenId) (w : Work) : Prop where
  confined : Confined s t i g
  done : t.general[g] = .occupied (i.val + 1) (.done 0x21)
  station : t.station i = { s.station i with ctx := some w.c, paint := (t.station i).paint }
  freeRows : t.freeRows = w.freeRows
  table : t.table = s.table
  attention : t.attention = s.attention
  raw : t.raw = if w.poolLow then s.raw.raise .poolLow else s.raw

theorem FormTaken.exec_rowEntry (h : FormTaken s i g v c) (he : (s.openWork i c).fillEntry e = .ok w)
    (latched : w.latched = none)
    (kept : w.st = { s.station i with lock := w.st.lock, paint := w.st.paint }) :
    let t := (s.hunting.closeWork i w).place g (stationNumber i) (.done 0x21)
    exec (.recordJoinsQueue i (.fill [e] false false)) s = .next t ∧ RowEntryTaken s t i g w := by
  have others := State.closeWork_others (s := s.hunting) (i := i) (w := w) latched
  have only : OnlyStation i s.hunting ((s.hunting.closeWork i w).place g (stationNumber i) (.done 0x21)) :=
    (State.closeWork_only s.hunting w (by rw [kept]; rfl)).trans (State.place_only _ _ _ _)
  have lock : w.st.lock = (s.station i).lock := (Work.fillEntry_filled he).lock
  have station := State.closeWork_station s.hunting w i (i := i)
  rw [if_pos rfl] at station
  have whole : w.st = { s.station i with paint := w.st.paint } := by
    conv_lhs => rw [kept, lock]
  refine ⟨h.exec_ok he, only.confined fun k hk _ => ?_, ?_, ?_, State.closeWork_freeRows _ w,
    State.closeWork_table _ _, ?_, State.closeWork_raw latched⟩
  · rw [State.place_general, getElem_set_fin, if_neg hk, others]
    rfl
  · rw [State.place_general, getElem_set_fin, if_pos rfl]
    rfl
  · change (s.hunting.closeWork i w).station i
      = { s.station i with ctx := some w.c, paint := ((s.hunting.closeWork i w).station i).paint }
    rw [station, whole]
  · rw [State.place_attention, others]
    rfl

/-- As `exec_rowEntry`, where the pool gets a record back. -/
theorem RowEntryTaken.quiet (latched : w.latched = none) (poolLow : w.poolLow = false)
    (h : RowEntryTaken s ((s.hunting.closeWork i w).place g (stationNumber i) (.done 0x21)) i g w) :
    Quiet s ((s.hunting.closeWork i w).place g (stationNumber i) (.done 0x21)) i g := by
  have raw := h.raw
  rw [poolLow] at raw
  have closed : s.hunting.closeWork i w = s.hunting.storeWork i w := by
    rw [State.closeWork_unlatched latched, poolLow]
    rfl
  refine ⟨h.confined, raw, ?_, h.table, h.attention, ?_⟩
  · rw [closed]
    rfl
  · rw [closed]
    rfl

end

/-! ### APPEND ROW and INSERT ROW (R118, R119) -/

theorem tagRepeats_eq_false_iff {tag : Nat} {rows : List RowRec} :
    tagRepeats tag rows = false ↔ tag = 0 ∨ ∀ r ∈ rows, r.tag ≠ some tag := by
  simp only [tagRepeats, Bool.and_eq_false_iff, bne_eq_false_iff_eq, List.any_eq_false, beq_iff_eq]

/-- R119: the work once a row has joined at position `p`, the derived instances computed. -/
def Work.rowJoined (w : Work) (p : Nat) (r : RowRec) : Work :=
  (((w.takeRow.insertRowAt p r).dirtyBandAt p).computeRow p).computeAllSums

section
variable {w : Work} {p : Nat} {row : RowEntry}

theorem Work.rowJoined_v (r : RowRec) : (w.rowJoined p r).v = w.v := by
  have band := (w.takeRow.insertRowAt p r).dirtyBandAt_keeps p
  exact ((band.trans (Work.computeRow_keeps _ _)).trans (Work.computeAllSums_keeps _)).version

theorem Work.rowJoined_edited (r : RowRec) : w.takeRow.Edited (w.rowJoined p r) := by
  have band : w.takeRow.Edited ((w.takeRow.insertRowAt p r).dirtyBandAt p) := by
    unfold Work.dirtyBandAt
    split <;> rfl
  exact (band.trans (Work.computeRow_edited _ _)).trans (Work.computeAllSums_edited _)

theorem Work.rowJoined_tallied (r : RowRec) :
    Tallied w.v { w.c with rows := w.c.rows.take (p - 1) ++ r :: w.c.rows.drop (p - 1) } (w.rowJoined p r).c := by
  have row := Tallied.computeRow ((w.takeRow.insertRowAt p r).dirtyBandAt p) p
  have sums := Tallied.computeAllSums (((w.takeRow.insertRowAt p r).dirtyBandAt p).computeRow p)
  rw [(Work.computeRow_keeps _ _).version, Work.dirtyBandAt_v] at sums
  rw [Work.dirtyBandAt_v, Work.dirtyBandAt_c] at row
  exact row.trans sums

theorem Work.fillInsert_place (h : ¬(1 ≤ p ∧ p ≤ w.c.rows.length + 1)) : w.fillInsert p row = .error .row := by
  unfold Work.fillInsert Work.rowCount
  rw [if_pos]
  simp only [Bool.or_eq_true, decide_eq_true_eq]
  omega

theorem Work.fillInsert_full (h : w.v.group.maxRows ≤ w.c.rows.length) : w.fillInsert p row = .error .row := by
  unfold Work.fillInsert
  split
  · rfl
  · exact if_pos h

section
variable (room : w.c.rows.length < w.v.group.maxRows)
include room

theorem Work.fillInsert_tag (h : ¬(row.tag ≤ 65535 ∧ (row.tag = 0 ∨ ∀ r ∈ w.c.rows, r.tag ≠ some row.tag))) :
    w.fillInsert p row = .error .row := by
  unfold Work.fillInsert Work.rowCount
  split
  · rfl
  · rw [if_neg (Nat.not_le.mpr room)]
    refine if_pos ?_
    rw [← tagRepeats_eq_false_iff, not_and_or, Nat.not_le, Bool.not_eq_false] at h
    simpa only [Bool.or_eq_true, decide_eq_true_eq] using h

/-- R118: behind the place, the room and the tag come the values and the row pool. -/
theorem Work.fillInsert_checked (hlo : 1 ≤ p) (hhi : p ≤ w.c.rows.length + 1)
    (h : row.tag ≤ 65535 ∧ (row.tag = 0 ∨ ∀ r ∈ w.c.rows, r.tag ≠ some row.tag)) :
    w.fillInsert p row = (applyValues w.v.rowDefs (w.v.rowDefs.map initialInst) row.values).bind fun insts =>
      if w.freeRows = 0 then .error .pool
      else .ok ((w.rowJoined p { insts := insts, tag := tagOf row.tag, operatorCreated := false }).leaveInst
        ((instAt w.v w.c w.c.cursor).map (shiftedByInsert p))) := by
  unfold Work.fillInsert Work.rowCount
  rw [← tagRepeats_eq_false_iff] at h
  have place : ¬(decide (p < 1) || decide (w.c.rows.length + 1 < p)) = true := by
    simp only [Bool.or_eq_true, decide_eq_true_eq]
    omega
  rw [if_neg place, if_neg (Nat.not_le.mpr room),
    if_neg (by simpa only [Bool.or_eq_true, decide_eq_true_eq, not_or, Nat.not_lt, Bool.not_eq_true] using h)]
  cases applyValues w.v.rowDefs (w.v.rowDefs.map initialInst) row.values <;> rfl

end

end

/-! ### DELETE ROW (R120) -/

/-- R74, R120: the work once the row at position `p` has left, the window clamped. -/
def Work.rowLeftWindow (w : Work) (p : Nat) : Work :=
  let w := (w.removeRowAt p).returnRow
  { w with c := { w.c with first := clampFirst w.v.group w.rowCount w.c.first } }

/-- R120: the work once the row at position `p` has left, the derived instances computed. -/
def Work.rowLeft (w : Work) (p : Nat) : Work :=
  (if p < w.c.first + w.v.group.visible then (w.rowLeftWindow p).dirty .band else w.rowLeftWindow p).computeAllSums

/-- Where an instance that stays stands when the row at position `p` has left. -/
def InstRef.behindRemoved (r : InstRef) (p : Nat) : InstRef :=
  match r with
  | .fixed j => .fixed j
  | .row k j => if p < k then .row (k - 1) j else .row k j

/-- R123: the edit of an instance when the row at position `p` has left. -/
def Work.leaveRow (w : Work) (p : Nat) (before : Option InstRef) : Work :=
  match before with
  | none => w
  | some r => match shiftedByRemove p r with
    | none => w.setEditing false
    | some q => w.leaveInst (some q)

section
variable {w : Work} {p : Nat}

theorem Work.fillDelete_place (h : ¬(1 ≤ p ∧ p ≤ w.c.rows.length)) : w.fillDelete p = .error .row := by
  unfold Work.fillDelete Work.rowCount
  rw [if_pos]
  simp only [Bool.or_eq_true, decide_eq_true_eq]
  omega

theorem Work.fillDelete_ok (hlo : 1 ≤ p) (hhi : p ≤ w.c.rows.length) :
    w.fillDelete p = .ok ((w.rowLeft p).leaveRow p (instAt w.v w.c w.c.cursor)) := by
  have place : ¬(decide (p < 1) || decide (w.rowCount < p)) = true := by
    unfold Work.rowCount
    simp only [Bool.or_eq_true, decide_eq_true_eq]
    omega
  unfold Work.fillDelete Work.leaveRow
  rw [if_neg place]
  dsimp only
  cases instAt w.v w.c w.c.cursor with
  | none => rfl
  | some r =>
    dsimp only
    cases shiftedByRemove p r <;> rfl

theorem Work.rowLeft_edited : w.returnRow.Edited (w.rowLeft p) := by
  refine Work.Edited.trans (b := _) ?_ (Work.computeAllSums_edited _)
  split <;> rfl

theorem Work.rowLeft_v : (w.rowLeft p).v = w.v := by
  rw [Work.rowLeft_edited (w := w) (p := p)]
  rfl

theorem Work.rowLeft_tallied (hlo : 1 ≤ p) (hhi : p ≤ w.c.rows.length) : Tallied w.v { w.c with
    rows := w.c.rows.eraseIdx (p - 1)
    first := min (max 1 w.c.first) (max 1 (w.c.rows.length - w.v.group.visible)) } (w.rowLeft p).c := by
  have erased : w.c.rows.take (p - 1) ++ w.c.rows.drop p = w.c.rows.eraseIdx (p - 1) := by
    rw [List.eraseIdx_eq_take_drop_succ, Nat.sub_add_cancel hlo]
  have window : clampFirst w.v.group (w.c.rows.eraseIdx (p - 1)).length w.c.first
      = min (max 1 w.c.first) (max 1 (w.c.rows.length - w.v.group.visible)) := by
    rw [List.length_eraseIdx_of_lt (by omega), clampFirst, windowBound, Nat.sub_add_cancel (hlo.trans hhi)]
  have form : (w.rowLeftWindow p).c = { w.c with
      rows := w.c.rows.eraseIdx (p - 1)
      first := min (max 1 w.c.first) (max 1 (w.c.rows.length - w.v.group.visible)) } := by
    simp only [Work.rowLeftWindow, Work.returnRow, Work.removeRowAt, Work.rowCount, erased, window]
  unfold Work.rowLeft
  split
  · have sums := Tallied.computeAllSums ((w.rowLeftWindow p).dirty .band)
    rw [Work.dirty_c, form] at sums
    exact sums
  · have sums := Tallied.computeAllSums (w.rowLeftWindow p)
    rw [form] at sums
    exact sums

theorem Work.leaveRow_edited (before : Option InstRef) : w.Edited (w.leaveRow p before) := by
  unfold Work.leaveRow
  split
  · exact .refl w
  · split
    · exact w.setEditing_edited false
    · exact w.leaveInst_edited _

theorem Work.leaveRow_others (before : Option InstRef) : (w.leaveRow p before).c = { w.c with
    fixed := (w.leaveRow p before).c.fixed, rows := (w.leaveRow p before).c.rows
    editing := (w.leaveRow p before).c.editing } := by
  unfold Work.leaveRow
  split
  · rfl
  · split
    · rfl
    · exact w.leaveInst_others _

theorem Work.leaveRow_shapes (before : Option InstRef) :
    (w.leaveRow p before).c.rows.map RowRec.shape = w.c.rows.map RowRec.shape := by
  unfold Work.leaveRow
  split
  · rfl
  · split
    · rfl
    · exact w.leaveInst_shapes _

theorem Work.leaveRow_idle (h : w.c.editing = false) (before : Option InstRef) : w.leaveRow p before = w := by
  have ended : w.setEditing false = w := by
    unfold Work.setEditing
    rw [← h]
  unfold Work.leaveRow
  split
  · rfl
  · split
    · exact ended
    · exact Work.leaveInst_idle h _

theorem Work.leaveRow_gone (j : Nat) : w.leaveRow p (some (.row p j)) = w.setEditing false := by
  unfold Work.leaveRow shiftedByRemove
  dsimp only
  rw [if_pos rfl]

/-- R123: an instance of another row, and a fixed one, stay in the form. -/
theorem Work.leaveRow_stays {r : InstRef} (h : ∀ j, r ≠ .row p j) : w.leaveRow p (some r)
    = w.leaveInst (some (r.behindRemoved p)) := by
  cases r with
  | fixed j => rfl
  | row k j =>
    have other : k ≠ p := fun e => h j (by rw [e])
    unfold Work.leaveRow shiftedByRemove InstRef.behindRemoved
    dsimp only
    rw [if_neg other]
    by_cases below : p < k
    · rw [if_pos below, if_pos below]
    · rw [if_neg below, if_neg below]

end

/-! ### Rows at the station -/

section
variable {s : State} {i : StationId} {g : GenId} {v : TemplateVersion} {c : Context} {p : Nat}

/-- R118: an APPEND ROW is an INSERT ROW behind the last row. -/
theorem exec_appendRow_eq (h : FormTaken s i g v c) (row : RowEntry) :
    exec (.appendRow i row) s = exec (.insertRow i (c.rows.length + 1) row) s := by
  obtain ⟨hg, hr, hc, -⟩ := h
  have taken : s.hunting.takeFill i g [.appendRow row] false false
      = s.hunting.takeFill i g [.insertRow (c.rows.length + 1) row] false false := by
    unfold State.takeFill
    rw [show (s.hunting.station i).ctx = some c from hc]
    rfl
  exact (exec_fill hg hr _ _ _).trans ((congrArg _ taken).trans (exec_fill hg hr _ _ _).symm)

/-- R118, R119, R123: the form once a row has joined and the edit has been seen to. -/
theorem Work.rowJoined_leaves {w : Work} {r : RowRec} {c' : Context}
    (hc : c' = ((w.rowJoined p r).leaveInst ((instAt w.v w.c w.c.cursor).map (shiftedByInsert p))).c) :
    let rows := w.c.rows.take (p - 1) ++ r :: w.c.rows.drop (p - 1)
    c' = { w.c with fixed := c'.fixed, rows := c'.rows, editing := c'.editing }
      ∧ c'.rows.map (fun r => (r.tag, r.operatorCreated)) = rows.map (fun r => (r.tag, r.operatorCreated))
      ∧ (w.c.editing = false → c'.editing = false ∧ FixedKept w.v w.c.fixed c'.fixed
          ∧ List.Forall₂ (RowKept w.v) rows c'.rows)
      ∧ (∀ q, w.c.editing = true → instAt w.v w.c w.c.cursor = some q →
        EditGoesOn w.v { w.c with rows := rows } (shiftedByInsert p q) c') := by
  have tallied := w.rowJoined_tallied (p := p) r
  have others := (w.rowJoined p r).leaveInst_others ((instAt w.v w.c w.c.cursor).map (shiftedByInsert p))
  have shapes := (w.rowJoined p r).leaveInst_shapes ((instAt w.v w.c w.c.cursor).map (shiftedByInsert p))
  rw [← hc] at others shapes
  refine ⟨?_, rowTags_of_shapes (shapes.trans tallied.shapes), fun idle => ?_, fun q editing under => ?_⟩
  · rw [tallied.others] at others
    exact others
  · rw [hc, Work.leaveInst_idle (tallied.editing.trans idle)]
    exact ⟨tallied.editing.trans idle, tallied.fixedKept, tallied.rowKept⟩
  · rw [hc, under]
    exact EditGoesOn.leaveInst (Work.rowJoined_v r) tallied editing (shiftedByInsert p q)

/-- R120, R123: the form once a row has left and the edit has been seen to. -/
theorem Work.rowLeft_leaves {w : Work} {c' : Context} (hlo : 1 ≤ p) (hhi : p ≤ w.c.rows.length)
    (hc : c' = ((w.rowLeft p).leaveRow p (instAt w.v w.c w.c.cursor)).c) :
    let rows := w.c.rows.eraseIdx (p - 1)
    let kept := FixedKept w.v w.c.fixed c'.fixed ∧ List.Forall₂ (RowKept w.v) rows c'.rows
    c' = { w.c with
        fixed := c'.fixed, rows := c'.rows, editing := c'.editing
        first := min (max 1 w.c.first) (max 1 (w.c.rows.length - w.v.group.visible)) }
      ∧ c'.rows.map (fun r => (r.tag, r.operatorCreated)) = rows.map (fun r => (r.tag, r.operatorCreated))
      ∧ (w.c.editing = false → c'.editing = false ∧ kept)
      ∧ (∀ j, instAt w.v w.c w.c.cursor = some (.row p j) → c'.editing = false ∧ kept)
      ∧ (∀ r, w.c.editing = true → instAt w.v w.c w.c.cursor = some r → (∀ j, r ≠ .row p j) →
        EditGoesOn w.v { w.c with rows := rows, first := c'.first } (r.behindRemoved p) c') := by
  have tallied := Work.rowLeft_tallied hlo hhi
  have others := (w.rowLeft p).leaveRow_others (p := p) (instAt w.v w.c w.c.cursor)
  have shapes := (w.rowLeft p).leaveRow_shapes (p := p) (instAt w.v w.c w.c.cursor)
  rw [← hc] at others shapes
  have form := others
  rw [tallied.others] at form
  refine ⟨form, rowTags_of_shapes (shapes.trans tallied.shapes), fun idle => ?_, fun j under => ?_,
    fun r editing under other => ?_⟩
  · rw [hc, Work.leaveRow_idle (tallied.editing.trans idle)]
    exact ⟨tallied.editing.trans idle, tallied.fixedKept, tallied.rowKept⟩
  · rw [hc, under, Work.leaveRow_gone]
    exact ⟨rfl, tallied.fixedKept, tallied.rowKept⟩
  · have window : c'.first = min (max 1 w.c.first) (max 1 (w.c.rows.length - w.v.group.visible)) := by rw [form]
    rw [window, hc, under, Work.leaveRow_stays other]
    exact EditGoesOn.leaveInst Work.rowLeft_v tallied editing (r.behindRemoved p)

end

/-- Settles O33: the checks in order; then the row, the Tally Unit's work and the edit, in this order. -/
theorem fillRowsJoinAndLeave : Obligations.FillRowsJoinAndLeave := by
  refine ⟨fun s i g v c p row h => ?_, fun s i g v c p h => ?_⟩
  · intro refused n fresh tag tagFree
    obtain rfl := h.openWork_v
    let w : Work := s.openWork i c
    have fails : ∀ {e}, w.fillInsert p row = .error e → refused e := fun he =>
      h.exec_error (e := .insertRow p row) he
    refine ⟨exec_appendRow_eq h row, fun bad => fails (Work.fillInsert_place (w := w) bad),
      fun _ _ full => fails (Work.fillInsert_full (w := w) full),
      fun hlo hhi room bad => fails (Work.fillInsert_tag (w := w) room bad), fun e hlo hhi room ok he => ?_,
      fun insts hlo hhi room ok hi empty => ?_, fun insts hlo hhi room ok hi free => ?_⟩
    · refine fails ((Work.fillInsert_checked (w := w) room hlo hhi ok).trans ?_)
      rw [show applyValues w.v.rowDefs _ _ = _ from he]
      rfl
    · refine fails ((Work.fillInsert_checked (w := w) room hlo hhi ok).trans ?_)
      rw [show applyValues w.v.rowDefs _ _ = _ from hi]
      exact if_pos empty
    · have applied := Work.fillInsert_checked (w := w) room hlo hhi ok
      rw [show applyValues w.v.rowDefs _ _ = _ from hi] at applied
      obtain ⟨done, hdone⟩ : ∃ done,
          done = (w.rowJoined p { insts := insts, tag := tag, operatorCreated := false }).leaveInst
            ((instAt w.v w.c w.c.cursor).map (shiftedByInsert p)) := ⟨_, rfl⟩
      have edited : w.takeRow.Edited done := hdone ▸ (Work.rowJoined_edited _).trans (Work.leaveInst_edited _)
      replace applied : w.fillInsert p row = .ok done := applied.trans ((if_neg free.ne').trans (congrArg _ hdone.symm))
      intro rows
      obtain ⟨runs, taken⟩ := h.exec_rowEntry (e := .insertRow p row) applied (congrArg Work.latched edited)
        edited.station
      obtain ⟨others, tags, idle, busy⟩ := Work.rowJoined_leaves (congrArg Work.c hdone)
      refine ⟨_, done.c, runs, fun last => ?_, taken.confined, taken.done, taken.station, others, tags, idle,
        fun r editing under => ?_, ?_, taken.table, taken.attention, ?_⟩
      · rw [exec_appendRow_eq h row, ← last]
        exact runs
      · have goesOn := busy r editing under
        cases r <;> exact goesOn
      · rw [taken.freeRows, congrArg Work.freeRows edited]
        exact Nat.sub_add_cancel free
      · rw [taken.raw, congrArg Work.poolLow edited]
        change (if (false || poolFalls s.freeRows 1) = true then _ else _) = _
        rw [Bool.false_or, poolFalls_one]
        simp only [decide_eq_true_eq]
  · obtain rfl := h.openWork_v
    let w : Work := s.openWork i c
    refine ⟨fun bad => h.exec_error (e := .deleteRow p) (Work.fillDelete_place (w := w) bad), fun hlo hhi => ?_⟩
    have applied := Work.fillDelete_ok (w := w) hlo hhi
    have edited := (Work.rowLeft_edited (w := w) (p := p)).trans
      (Work.leaveRow_edited (p := p) (instAt w.v w.c w.c.cursor))
    have form := fun c' => Work.rowLeft_leaves (w := w) (c' := c') hlo hhi
    generalize (w.rowLeft p).leaveRow p _ = done at applied edited form
    obtain ⟨runs, taken⟩ := h.exec_rowEntry (e := .deleteRow p) applied (congrArg Work.latched edited) edited.station
    obtain ⟨others, tags, idle, gone, busy⟩ := form done.c rfl
    refine ⟨_, done.c, runs, taken.quiet (congrArg Work.latched edited) (congrArg Work.poolLow edited), taken.done,
      taken.station, others, tags, idle, gone, fun r editing under other => ?_, ?_⟩
    · have goesOn := busy r editing under other
      cases r <;> exact goesOn
    · rw [taken.freeRows, congrArg Work.freeRows edited]
      rfl

end Sys2Proof.Machine

/-! PROOFS. The backdrop of an act: what no key and no entry of a FILL reads, so that one act can be told as two, each
begun where the one before it ended. -/

namespace Sys2Proof.Machine

/-! ### The backdrop

An act works on `Work.c`. Nothing it does reads or writes the form its station record held before; its type-ahead queue
it leaves alone until the queue is dealt with; and that POOL LOW is raised it only adds. -/

structure Backdrop where
  poolLow : Bool
  form : Option Context
  keys : List Byte → List Byte

/-- The act on another backdrop. -/
def Work.on (w : Work) (k : Backdrop) : Work :=
  { w with st := { w.st with ctx := k.form, typeAhead := k.keys w.st.typeAhead }, poolLow := k.poolLow || w.poolLow }

section
variable (w : Work) (k : Backdrop)

@[simp] theorem Work.on_c : (w.on k).c = w.c := rfl
@[simp] theorem Work.on_v : (w.on k).v = w.v := rfl
@[simp] theorem Work.on_freeRows : (w.on k).freeRows = w.freeRows := rfl
@[simp] theorem Work.on_latched : (w.on k).latched = w.latched := rfl
@[simp] theorem Work.on_lock : (w.on k).st.lock = w.st.lock := rfl
@[simp] theorem Work.on_under : (w.on k).under = w.under := rfl
@[simp] theorem Work.on_openUnder : (w.on k).openUnder = w.openUnder := rfl
@[simp] theorem Work.on_rowCount : (w.on k).rowCount = w.rowCount := rfl
@[simp] theorem Work.on_setEditing (b : Bool) : (w.on k).setEditing b = (w.setEditing b).on k := rfl
@[simp] theorem Work.on_dirty (d : Dirty) : (w.on k).dirty d = (w.dirty d).on k := rfl
@[simp] theorem Work.on_markCursor : (w.on k).markCursor = w.markCursor.on k := rfl
@[simp] theorem Work.on_insertRowAt (p : Nat) (x : RowRec) : (w.on k).insertRowAt p x = (w.insertRowAt p x).on k := rfl

@[simp] theorem Work.on_takeRow : (w.on k).takeRow = w.takeRow.on k := by
  simp [Work.takeRow, Work.on, Bool.or_assoc]

/-- A choice between two works on a backdrop. -/
theorem Work.ite_on (p : Prop) [Decidable p] (a b : Work) : (if p then a else b).on k = if p then a.on k else b.on k :=
  apply_ite (Work.on · k) p a b

/-! ### Locks, notices and the cursor -/

theorem Work.on_noteIndicator (new : Work) : (w.on k).noteIndicator (new.on k) = (w.noteIndicator new).on k := by
  unfold Work.noteIndicator
  rw [Work.ite_on]
  rfl

@[simp] theorem Work.on_setLock (x : StationState) (l : Lock) : (w.on k).setLock x l = (w.setLock x l).on k :=
  Work.on_noteIndicator w k { w with st := { w.st with state := x, lock := l } }

@[simp] theorem Work.on_setAdjusted (b : Bool) : (w.on k).setAdjusted b = (w.setAdjusted b).on k :=
  Work.on_noteIndicator w k { w with c := { w.c with adjusted := b } }

@[simp] theorem Work.on_setInsertMode (b : Bool) : (w.on k).setInsertMode b = (w.setInsertMode b).on k :=
  Work.on_noteIndicator w k { w with c := { w.c with insertMode := b } }

@[simp] theorem Work.on_operatorError (code : ErrorCode) : (w.on k).operatorError code = (w.operatorError code).on k :=
  congrArg Work.alarm (w.on_setLock k w.st.state (.operatorError code))

@[simp] theorem Work.on_latch (key : Byte) : (w.on k).latch key = (w.latch key).on k :=
  congrArg (fun w : Work => { w with latched := some key }) (w.on_setLock k .attention .system)

@[simp] theorem Work.on_moveCursor (q : Pos) : (w.on k).moveCursor q = (w.moveCursor q).on k := by
  unfold Work.moveCursor
  rw [Work.ite_on]
  rfl

@[simp] theorem Work.on_setFirst (f : Nat) : (w.on k).setFirst f = (w.setFirst f).on k := by
  unfold Work.setFirst
  rw [Work.ite_on]
  rfl

@[simp] theorem Work.on_showRow (r : InstRef) : (w.on k).showRow r = (w.showRow r).on k := by
  rw [Work.showRow_eq, Work.showRow_eq, Work.on_setFirst]
  rfl

/-! ### Instances and the Tally Unit -/

@[simp] theorem Work.on_dirtyInst (r : InstRef) : (w.on k).dirtyInst r = (w.dirtyInst r).on k := by
  cases r with
  | fixed j => rfl
  | row p j =>
    unfold Work.dirtyInst
    dsimp only
    rw [Work.ite_on]
    rfl

@[simp] theorem Work.on_putInst (r : InstRef) (x : FieldInst) : (w.on k).putInst r x = (w.putInst r x).on k := by
  unfold Work.putInst
  rw [Work.on_c, Work.on_v]
  cases w.c.inst? r with
  | none => rfl
  | some y =>
    dsimp only
    rw [Work.ite_on, ← Work.on_dirtyInst]
    rfl

@[simp] theorem Work.on_compute (r : InstRef) : (w.on k).compute r = (w.compute r).on k := by
  unfold Work.compute
  rw [Work.on_c, Work.on_v]
  split
  · exact w.on_putInst k _ _
  · rfl

@[simp] theorem Work.on_computeSumsOf (ids : List Nat) : (w.on k).computeSumsOf ids = (w.computeSumsOf ids).on k :=
  List.foldl_hom (Work.on · k) fun u j => (u.on_compute k (.fixed j))

@[simp] theorem Work.on_computeAllSums : (w.on k).computeAllSums = w.computeAllSums.on k :=
  List.foldl_hom (Work.on · k) fun u j => (u.on_compute k (.fixed j))

@[simp] theorem Work.on_computeRow (p : Nat) : (w.on k).computeRow p = (w.computeRow p).on k :=
  List.foldl_hom (Work.on · k) fun u j => (u.on_compute k (.row p j))

@[simp] theorem Work.on_computeProductsOf (l : List (Nat × Nat)) : (w.on k).computeProductsOf l
    = ((w.computeProductsOf l).1.on k, (w.computeProductsOf l).2) := by
  refine List.foldl_hom (fun p : Work × List Nat => (p.1.on k, p.2)) (g₁ := Work.computeProduct)
    (g₂ := Work.computeProduct) (init := (w, _)) fun p r => ?_
  simp only [Work.computeProduct, Work.on_compute, Work.on_c, Work.on_v]

@[simp] theorem Work.on_tally (l : List (Nat × Nat)) : (w.on k).tally l = (w.tally l).on k := by
  unfold Work.tally
  rw [Work.on_computeProductsOf]
  exact Work.on_computeSumsOf _ _ _

/-! ### Field exits and moves -/

/-- The outcome of an exit on another backdrop. -/
def ExitOutcome.on (e : ExitOutcome) (k : Backdrop) : ExitOutcome :=
  match e with
  | .passed w changed => .passed (w.on k) changed
  | .failed w => .failed (w.on k)

@[simp] theorem Work.on_exitField (negate : Bool) : (w.on k).exitField negate = (w.exitField negate).on k := by
  unfold Work.exitField
  rw [Work.on_under, Work.on_c, Work.on_v]
  split
  · rfl
  split
  · rfl
  split
  · rw [Work.on_moveCursor, Work.on_operatorError]
    rfl
  · dsimp only
    rw [Work.on_putInst, Work.on_setEditing, Work.on_setAdjusted, ← Work.ite_on]
    rfl

@[simp] theorem Work.on_exitThenMove (b negate : Bool) (l : List (Nat × Nat)) (f : Nat) (q : Pos) :
    (w.on k).exitThenMove b negate l f q = (w.exitThenMove b negate l f q).on k := by
  have exit : (if b then (w.on k).exitField negate else .passed (w.on k) [])
      = (if b then w.exitField negate else .passed w []).on k := by
    cases b
    · rfl
    · exact w.on_exitField k negate
  unfold Work.exitThenMove
  rw [exit]
  cases (if b then w.exitField negate else .passed w []) with
  | failed w' => exact w'.on_tally k l
  | passed w' changed => simp only [ExitOutcome.on, Work.on_tally, Work.on_setFirst, Work.on_moveCursor]

@[simp] theorem Work.on_moveAsTab (negate : Bool) (l : List (Nat × Nat)) :
    (w.on k).moveAsTab negate l = (w.moveAsTab negate l).on k :=
  w.on_exitThenMove k true negate l w.tabDecision.1 w.tabDecision.2

@[simp] theorem Work.on_arrow (target : Pos) : (w.on k).arrow target = (w.arrow target).on k :=
  w.on_exitThenMove k _ false [] w.c.first target

@[simp] theorem Work.on_rollTo (f : Nat) : (w.on k).rollTo f = (w.rollTo f).on k := by
  unfold Work.rollTo
  rw [Work.ite_on, Work.on_exitThenMove]
  rfl

/-! ### Keys that write -/

@[simp] theorem Work.on_editText (u : Under) (t : Text) : (w.on k).editText u t = (w.editText u t).on k :=
  congrArg (Work.setEditing · true) (w.on_putInst k _ _)

@[simp] theorem Work.on_advance (d : FieldDef) : (w.on k).advance d = (w.advance d).on k := by
  unfold Work.advance
  simp only [Work.ite_on, Work.on_moveCursor, Work.on_moveAsTab, Work.on_exitThenMove, Work.on_c]

@[simp] theorem Work.on_dataKey (ch : Byte) : (w.on k).dataKey ch = (w.dataKey ch).on k := by
  unfold Work.dataKey
  rw [Work.on_under]
  cases w.under with
  | none => exact w.on_operatorError k _
  | some u => simp only [Work.ite_on, Work.on_operatorError, Work.on_editText, Work.on_advance, Work.on_c]

@[simp] theorem Work.on_deleteKey : (w.on k).deleteKey = w.deleteKey.on k := by
  unfold Work.deleteKey
  rw [Work.on_openUnder]
  cases w.openUnder with
  | none => exact w.on_operatorError k _
  | some u => exact w.on_editText k _ _

@[simp] theorem Work.on_eraseEofKey : (w.on k).eraseEofKey = w.eraseEofKey.on k := by
  unfold Work.eraseEofKey
  rw [Work.on_openUnder]
  cases w.openUnder with
  | none => exact w.on_operatorError k _
  | some u => exact w.on_editText k _ _

theorem Work.on_eraseInst (p : Work × List (Nat × Nat)) (r : InstRef) :
    Work.eraseInst (p.1.on k, p.2) r = ((Work.eraseInst p r).1.on k, (Work.eraseInst p r).2) := by
  unfold Work.eraseInst
  dsimp only
  rw [Work.on_v, Work.on_c]
  split
  · split
    · rfl
    · rw [Work.on_putInst]
  · rfl

@[simp] theorem Work.on_eraseInputKey : (w.on k).eraseInputKey = w.eraseInputKey.on k := by
  unfold Work.eraseInputKey
  rw [Work.on_v, Work.on_c]
  have erased : (allRefs w.v w.c).foldl Work.eraseInst (w.on k, []) = _ :=
    List.foldl_hom (fun p : Work × List (Nat × Nat) => (p.1.on k, p.2)) (g₁ := Work.eraseInst) (g₂ := Work.eraseInst)
      (init := (w, [])) fun p r => Work.on_eraseInst k p r
  rw [erased]
  dsimp only
  rw [Work.on_setEditing, Work.on_moveCursor, Work.on_tally]
  rfl

@[simp] theorem Work.on_fieldExitKey : (w.on k).fieldExitKey = w.fieldExitKey.on k := by
  unfold Work.fieldExitKey
  rw [Work.on_openUnder]
  cases w.openUnder with
  | none => exact w.on_operatorError k _
  | some u => simp only [Work.on_editText, Work.on_moveAsTab, Work.on_c]

@[simp] theorem Work.on_fieldMinusKey : (w.on k).fieldMinusKey = w.fieldMinusKey.on k := by
  unfold Work.fieldMinusKey
  rw [Work.on_openUnder]
  cases w.openUnder with
  | none => exact w.on_operatorError k _
  | some u => simp only [Work.ite_on, Work.on_editText, Work.on_moveAsTab, Work.on_operatorError, Work.on_c]

@[simp] theorem Work.on_dupKey : (w.on k).dupKey = w.dupKey.on k := by
  unfold Work.dupKey
  rw [Work.on_openUnder, Work.on_c]
  cases w.openUnder with
  | none => rfl
  | some u =>
    dsimp only
    cases dupSource w.c u.ref with
    | none => rfl
    | some src => simp only [Work.on_putInst, Work.on_setEditing, Work.on_moveAsTab]

/-! ### Item lines -/

@[simp] theorem Work.on_insertOperatorRow (l : List (Nat × Nat)) :
    (w.on k).insertOperatorRow l = (w.insertOperatorRow l).on k := by
  unfold Work.insertOperatorRow
  dsimp only
  rw [show (w.on k).cursorSlot = w.cursorSlot from rfl]
  simp only [Work.on_takeRow, Work.on_insertRowAt, Work.on_computeRow, Work.on_computeProductsOf,
    Work.on_computeAllSums, Work.on_dirty, Work.on_markCursor, Work.on_moveCursor, Work.on_c, Work.on_v,
    Work.on_rowCount]
  rfl

@[simp] theorem Work.on_rowInsertKey : (w.on k).rowInsertKey = w.rowInsertKey.on k := by
  unfold Work.rowInsertKey
  simp only [Work.ite_on, Work.on_operatorError, Work.on_exitField, Work.on_c, Work.on_v, Work.on_rowCount,
    Work.on_freeRows]
  cases w.exitField false with
  | failed w' => rfl
  | passed w' changed => simp only [ExitOutcome.on, Work.on_insertOperatorRow]

@[simp] theorem Work.on_deleteOperatorRow (p : Nat) (x : RowRec) :
    (w.on k).deleteOperatorRow p x = (w.deleteOperatorRow p x).on k := by
  unfold Work.deleteOperatorRow
  dsimp only
  rw [← Work.on_dirty, ← Work.on_computeAllSums, Work.on_c, Work.on_v]
  split <;> rfl

@[simp] theorem Work.on_rowDeleteKey : (w.on k).rowDeleteKey = w.rowDeleteKey.on k := by
  unfold Work.rowDeleteKey
  rw [show (w.on k).cursorSlot = w.cursorSlot from rfl, Work.on_c, Work.on_v, Work.ite_on, Work.on_operatorError]
  cases w.c.slotRow w.cursorSlot with
  | none => rfl
  | some p =>
    dsimp only
    cases w.c.row? p with
    | none => rfl
    | some x => simp only [Work.ite_on, Work.on_operatorError, Work.on_deleteOperatorRow]

/-! ### Attention keys, and any key -/

@[simp] theorem Work.on_reportKey (key : Byte) : (w.on k).reportKey key = (w.reportKey key).on k := by
  unfold Work.reportKey
  rw [Work.on_exitField]
  cases w.exitField false with
  | failed w' => rfl
  | passed w' changed =>
    simp only [ExitOutcome.on, Work.on_tally, Work.on_c, Work.on_v]
    cases (allRefs (w'.tally changed).v (w'.tally changed).c).find?
        (isUnentered (w'.tally changed).v (w'.tally changed).c) with
    | none => exact Work.on_latch _ k key
    | some r => simp only [Work.on_showRow, Work.on_moveCursor, Work.on_operatorError, Work.on_c, Work.on_v]

theorem Work.on_applyDecoded (key : Key) : (w.on k).applyDecoded key = (w.applyDecoded key).on k := by
  cases key with
  | attention code =>
    simp only [Work.applyDecoded, Work.ite_on, Work.on_latch, Work.on_reportKey]
  | backtab => exact w.on_exitThenMove k _ _ _ _ _
  | newline => exact w.on_exitThenMove k _ _ _ _ _
  | _ =>
    simp only [Work.applyDecoded, Work.on_c, Work.on_v, Work.on_dataKey, Work.on_moveAsTab, Work.on_exitThenMove,
      Work.on_arrow, Work.on_rollTo, Work.on_rowInsertKey, Work.on_rowDeleteKey, Work.on_deleteKey, Work.on_eraseEofKey,
      Work.on_eraseInputKey, Work.on_fieldExitKey, Work.on_fieldMinusKey, Work.on_dupKey, Work.on_setInsertMode]

/-- A key acts as it does on any backdrop. -/
@[simp] theorem Work.on_applyKey (b : Byte) : (w.on k).applyKey b = (w.applyKey b).on k := by
  unfold Work.applyKey
  cases decodeKey b with
  | none => rfl
  | some key => simp only [Work.on_setAdjusted, Work.on_applyDecoded]

end

/-! ### Entries of a FILL -/

/-- The outcome of an entry on another backdrop. -/
def onBackdrop (e : Except Reason Work) (k : Backdrop) : Except Reason Work := e.map (Work.on · k)

section
variable (w : Work) (k : Backdrop)

@[simp] theorem onBackdrop_error (r : Reason) : onBackdrop (.error r) k = .error r := rfl
@[simp] theorem onBackdrop_ok : onBackdrop (.ok w) k = .ok (w.on k) := rfl

theorem onBackdrop_ite (p : Prop) [Decidable p] (a b : Except Reason Work) :
    onBackdrop (if p then a else b) k = if p then onBackdrop a k else onBackdrop b k :=
  apply_ite (onBackdrop · k) p a b

@[simp] theorem Work.on_dirtyBandAt (p : Nat) : (w.on k).dirtyBandAt p = (w.dirtyBandAt p).on k := by
  unfold Work.dirtyBandAt
  rw [Work.ite_on]
  rfl

@[simp] theorem Work.on_abandonEdit (r : InstRef) : (w.on k).abandonEdit r = (w.abandonEdit r).on k := by
  unfold Work.abandonEdit
  dsimp only
  rw [Work.on_setEditing, Work.on_v, Work.on_c]
  split
  · rw [Work.ite_on, Work.on_putInst]
  · rfl

@[simp] theorem Work.on_leaveInst (before : Option InstRef) : (w.on k).leaveInst before = (w.leaveInst before).on k := by
  unfold Work.leaveInst
  cases before with
  | none => rfl
  | some r => simp only [Work.ite_on, Work.on_abandonEdit, Work.on_c, Work.on_v]

@[simp] theorem Work.on_setInst (r : InstRef) (x : FieldInst) (t : Text × Option Int) :
    (w.on k).setInst r x t = (w.setInst r x t).on k := by
  unfold Work.setInst
  simp only [Work.on_putInst, Work.on_setEditing, Work.on_c, Work.on_v, ← Work.ite_on, Work.on_tally]

theorem Work.on_fillSet (ref : FieldRef) (t : Text) : (w.on k).fillSet ref t = onBackdrop (w.fillSet ref t) k := by
  unfold Work.fillSet
  rw [Work.on_v, Work.on_c]
  cases resolveRef w.v w.c ref with
  | error e => rfl
  | ok p =>
    obtain ⟨r, d⟩ := p
    dsimp only
    rw [onBackdrop_ite]
    cases hostText d t with
    | none => rfl
    | some x => cases w.c.inst? r <;> simp only [onBackdrop_ok, onBackdrop_error, Work.on_setInst]

theorem Work.on_fillInsert (p : Nat) (x : RowEntry) : (w.on k).fillInsert p x = onBackdrop (w.fillInsert p x) k := by
  unfold Work.fillInsert
  simp only [onBackdrop_ite, onBackdrop_error, Work.on_rowCount, Work.on_v, Work.on_c, Work.on_freeRows]
  cases applyValues w.v.rowDefs (w.v.rowDefs.map initialInst) x.values with
  | error e => rfl
  | ok insts =>
    simp only [onBackdrop_ite, onBackdrop_ok, onBackdrop_error, Work.on_takeRow, Work.on_insertRowAt,
      Work.on_dirtyBandAt, Work.on_computeRow, Work.on_computeAllSums, Work.on_leaveInst]
    rfl

theorem Work.on_rowLeft (p : Nat) : (w.on k).rowLeft p = (w.rowLeft p).on k := by
  unfold Work.rowLeft
  rw [← Work.on_computeAllSums, Work.ite_on]
  rfl

theorem Work.on_leaveRow (p : Nat) (before : Option InstRef) :
    (w.on k).leaveRow p before = (w.leaveRow p before).on k := by
  unfold Work.leaveRow
  cases before with
  | none => rfl
  | some r =>
    dsimp only
    cases shiftedByRemove p r <;> simp only [Work.on_setEditing, Work.on_leaveInst]

theorem Work.on_fillDelete (p : Nat) : (w.on k).fillDelete p = onBackdrop (w.fillDelete p) k := by
  by_cases place : 1 ≤ p ∧ p ≤ w.c.rows.length
  · obtain ⟨hlo, hhi⟩ := place
    rw [Work.fillDelete_ok hlo hhi, Work.fillDelete_ok (w := w.on k) hlo hhi, Work.on_rowLeft, Work.on_leaveRow]
    rfl
  · rw [Work.fillDelete_place place, Work.fillDelete_place (w := w.on k) place]
    rfl

theorem Work.on_fillTag (p tag : Nat) : (w.on k).fillTag p tag = onBackdrop (w.fillTag p tag) k := by
  unfold Work.fillTag
  simp only [onBackdrop_ite]
  rfl

theorem Work.on_fillCursor (ref : FieldRef) : (w.on k).fillCursor ref = onBackdrop (w.fillCursor ref) k := by
  unfold Work.fillCursor
  rw [Work.on_v, Work.on_c]
  cases resolveRef w.v w.c ref with
  | error e => rfl
  | ok p =>
    obtain ⟨r, d⟩ := p
    simp only [Work.on_showRow, Work.on_moveCursor, Work.on_leaveInst, Work.on_v, Work.on_c, onBackdrop_ok]

/-- An entry acts as it does on any backdrop. -/
theorem Work.on_fillEntry (e : FillEntry) : (w.on k).fillEntry e = onBackdrop (w.fillEntry e) k := by
  cases e with
  | set ref text => exact w.on_fillSet k ref text
  | appendRow row => exact w.on_fillInsert k (w.rowCount + 1) row
  | insertRow position row => exact w.on_fillInsert k position row
  | deleteRow position => exact w.on_fillDelete k position
  | tagRow position tag => exact w.on_fillTag k position tag
  | cursor ref => exact w.on_fillCursor k ref

end

end Sys2Proof.Machine

/-! PROOFS. One act told as two: the keyboard opened and a FILL's entries on any backdrop, and an act that goes on from the
state the act before it has left. -/

namespace Sys2Proof.Machine

/-! ### The keyboard opened, on any backdrop (R27, R37) -/

section
variable (w : Work) {k : Backdrop} (hk : k.keys = id)
include hk

theorem Work.on_setTypeAhead (l : List Byte) : (w.on k).setTypeAhead l = (w.setTypeAhead l).on k := by
  simp [Work.setTypeAhead, Work.on, hk]

theorem Work.on_drain (l : List Byte) : (w.on k).drain l = (w.drain l).on k := by
  induction l generalizing w with
  | nil => exact w.on_setTypeAhead hk []
  | cons b rest ih =>
    unfold Work.drain
    simp only [w.on_setTypeAhead hk, Work.on_applyKey, Work.on_lock]
    cases ((w.setTypeAhead rest).applyKey b).st.lock with
    | none => exact ih _
    | operatorError code => exact Work.on_setTypeAhead _ hk []
    | system => rfl
    | snapshot => rfl

theorem Work.on_dealWithTypeAhead : (w.on k).dealWithTypeAhead = w.dealWithTypeAhead.on k := by
  have keys : (w.on k).st.typeAhead = w.st.typeAhead := by simp [Work.on, hk]
  have discarded : ({ w.on k with st := { (w.on k).st with typeAhead := [], overrun := false } } : Work)
      = ({ w with st := { w.st with typeAhead := [], overrun := false } } : Work).on k := by simp [Work.on, hk]
  unfold Work.dealWithTypeAhead
  rw [Work.ite_on, keys, discarded, Work.on_operatorError, w.on_drain hk]
  rfl

theorem Work.on_openKeyboard : (w.on k).openKeyboard = w.openKeyboard.on k := by
  unfold Work.openKeyboard
  rw [Work.ite_on, Work.on_setLock, Work.on_setLock, Work.on_dealWithTypeAhead _ hk]
  rfl

theorem Work.on_unlock : (w.on k).unlock = w.unlock.on k := by
  unfold Work.unlock
  rw [show (w.on k).st.state = w.st.state from rfl]
  cases w.st.state with
  | held => exact w.on_openKeyboard hk
  | attention => exact w.on_openKeyboard hk
  | _ => rfl

end

/-! ### A FILL's entries in parts (R114) -/

theorem Work.fillEntries_append {w w' : Work} {n : Nat} {l : List FillEntry} (h : w.fillEntries n l = (w', none))
    (m : List FillEntry) : w.fillEntries n (l ++ m) = w'.fillEntries (n + l.length) m := by
  induction l generalizing w n with
  | nil =>
    cases h
    rfl
  | cons e rest ih =>
    unfold Work.fillEntries at h
    rw [List.cons_append, Work.fillEntries]
    cases he : w.fillEntry e with
    | error r =>
      rw [he] at h
      cases h
    | ok u =>
      rw [he] at h
      dsimp only
      rw [ih h, List.length_cons, Nat.add_right_comm, Nat.add_assoc]

/-! ### What latches an attention (R135) -/

theorem Work.Edited.latched {a b : Work} (h : a.Edited b) : b.latched = a.latched := by
  rw [h]

section
variable {w w' : Work}

/-- R114: no entry of a FILL latches an attention. -/
theorem Work.fillEntry_latched {e : FillEntry} (h : w.fillEntry e = .ok w') : w'.latched = w.latched := by
  have insert : ∀ {p row}, w.fillInsert p row = .ok w' → w'.latched = w.latched := fun {p row} h => by
    unfold Work.fillInsert at h
    repeat' split at h
    all_goals cases h
    exact ((Work.rowJoined_edited _).trans (Work.leaveInst_edited _)).latched
  cases e with
  | set ref text =>
    simp only [Work.fillEntry, Work.fillSet] at h
    repeat' split at h
    all_goals cases h
    rename_i inst
    exact (Work.setInst_edited inst _).latched
  | appendRow row => exact insert h
  | insertRow p row => exact insert h
  | deleteRow p =>
    by_cases place : 1 ≤ p ∧ p ≤ w.c.rows.length
    · obtain ⟨hlo, hhi⟩ := place
      obtain rfl := Except.ok.inj ((Work.fillDelete_ok hlo hhi).symm.trans h)
      exact (Work.rowLeft_edited.trans (Work.leaveRow_edited _)).latched
    · cases (Work.fillDelete_place place).symm.trans h
  | tagRow p tag =>
    simp only [Work.fillEntry, Work.fillTag] at h
    repeat' split at h
    all_goals cases h
    rfl
  | cursor ref =>
    cases found : resolveRef w.v w.c ref with
    | error e => cases (Work.fillCursor_of_error found).symm.trans h
    | ok p =>
      obtain rfl := Except.ok.inj ((Work.fillCursor_ok (r := p.1) (d := p.2) found).symm.trans h)
      exact (Work.cursorTo_edited.trans (Work.leaveInst_edited _)).latched

theorem Work.fillEntries_latched (l : List FillEntry) (w : Work) (n : Nat) :
    (w.fillEntries n l).1.latched = w.latched := by
  induction l generalizing w n with
  | nil => rfl
  | cons e rest ih =>
    unfold Work.fillEntries
    cases he : w.fillEntry e with
    | error r => rfl
    | ok u => exact (ih u _).trans (Work.fillEntry_latched he)

end

/-! ### Keys that edit and move -/

section
variable (w : Work)

theorem Work.editText_edited (u : Under) (t : Text) : w.Edited (w.editText u t) :=
  (w.putInst_edited _ _).trans (Work.setEditing_edited _ _)

theorem Work.moveAsTab_edited (negate : Bool) (l : List (Nat × Nat)) : w.Edited (w.moveAsTab negate l) :=
  w.exitThenMove_edited _ _ _ _ _

theorem Work.advance_edited (d : FieldDef) : w.Edited (w.advance d) := by
  unfold Work.advance
  split
  · exact w.moveCursor_edited _
  · split
    · exact w.moveAsTab_edited _ _
    · exact w.exitThenMove_edited _ _ _ _ _

theorem Work.dataKey_edited (ch : Byte) : w.Edited (w.dataKey ch) := by
  unfold Work.dataKey
  split
  · exact w.operatorError_edited _
  · split
    · exact w.operatorError_edited _
    · split
      · exact w.operatorError_edited _
      · split
        · exact w.operatorError_edited _
        · exact (w.editText_edited _ _).trans (Work.advance_edited _ _)

theorem Work.deleteKey_edited : w.Edited w.deleteKey := by
  unfold Work.deleteKey
  split
  · exact w.operatorError_edited _
  · exact w.editText_edited _ _

theorem Work.eraseEofKey_edited : w.Edited w.eraseEofKey := by
  unfold Work.eraseEofKey
  split
  · exact w.operatorError_edited _
  · exact w.editText_edited _ _

theorem Work.eraseInputKey_edited : w.Edited w.eraseInputKey := by
  have erased := Work.eraseAll_erased (allRefs w.v w.c) (w, [])
  unfold Work.eraseInputKey
  exact (erased.edited.trans (Work.moveCursor_edited (Work.setEditing _ false) _)).trans (Work.tally_edited _ _)

theorem Work.fieldExitKey_edited : w.Edited w.fieldExitKey := by
  unfold Work.fieldExitKey
  split
  · exact w.operatorError_edited _
  · exact (w.editText_edited _ _).trans (Work.moveAsTab_edited _ _ _)

theorem Work.fieldMinusKey_edited : w.Edited w.fieldMinusKey := by
  unfold Work.fieldMinusKey
  split
  · exact w.operatorError_edited _
  · split
    · exact (w.editText_edited _ _).trans (Work.moveAsTab_edited _ _ _)
    · exact w.operatorError_edited _

theorem Work.dupKey_edited : w.Edited w.dupKey := by
  unfold Work.dupKey
  split
  · exact w.alarm_edited
  · split
    · exact w.alarm_edited
    · exact ((w.putInst_edited _ _).trans (Work.setEditing_edited _ _)).trans (Work.moveAsTab_edited _ _ _)

theorem Work.rollTo_edited (f : Nat) : w.Edited (w.rollTo f) := by
  unfold Work.rollTo
  split
  · exact .refl w
  · exact w.exitThenMove_edited _ _ _ _ _

theorem Work.exitField_latched (negate : Bool) : match w.exitField negate with
    | .failed w' => w'.latched = w.latched
    | .passed w' _ => w'.latched = w.latched := by
  cases h : w.exitField negate with
  | failed w' => exact (w.exitField_failed_edited h).latched
  | passed w' changed => exact (w.exitField_passed_edited h).latched

theorem Work.rowInsertKey_latched : w.rowInsertKey.latched = w.latched := by
  have exits := w.exitField_latched false
  unfold Work.rowInsertKey
  split
  · exact (w.operatorError_edited _).latched
  · split
    · exact (w.operatorError_edited _).latched
    · split
      · exact (w.operatorError_edited _).latched
      · cases h : w.exitField false with
        | failed w' =>
          rw [h] at exits
          exact exits
        | passed w' changed =>
          rw [h] at exits
          exact (w'.insertOperatorRow_edited changed).latched.trans exits

theorem Work.rowDeleteKey_latched : w.rowDeleteKey.latched = w.latched := by
  unfold Work.rowDeleteKey
  split
  · exact (w.operatorError_edited _).latched
  · split
    · exact (w.operatorError_edited _).latched
    · split
      · exact (w.operatorError_edited _).latched
      · split
        · exact (w.operatorError_edited _).latched
        · exact (w.deleteOperatorRow_edited _ _).latched

theorem Work.latch_lock (key : Byte) : (w.latch key).st.lock = .system :=
  congrArg Seat.lock (w.setLock_seat .attention .system)

/-- R134, R135: an attention key that latches nothing stops at a field. -/
theorem Work.reportKey_latched (key : Byte) :
    (w.reportKey key).latched = w.latched ∨ (w.reportKey key).st.lock = .system := by
  have exits := w.exitField_latched false
  unfold Work.reportKey
  cases h : w.exitField false with
  | failed w' =>
    rw [h] at exits
    exact .inl exits
  | passed w' changed =>
    rw [h] at exits
    have tallied := (w'.tally_edited changed).latched.trans exits
    dsimp only
    split
    · rename_i r _
      refine .inl (Eq.trans ?_ tallied)
      rw [Work.showRow_eq]
      exact (((Work.setFirst_edited _ _).trans (Work.moveCursor_edited _ _)).trans
        (Work.operatorError_edited _ _)).latched
    · exact .inr (Work.latch_lock _ key)

/-- R49, R135: a keystroke latches no attention, or leaves the keyboard closed. -/
theorem Work.applyKey_latched (b : Byte) : (w.applyKey b).latched = w.latched ∨ (w.applyKey b).st.lock = .system := by
  unfold Work.applyKey
  cases decodeKey b with
  | none => exact .inl rfl
  | some key =>
    dsimp only
    rw [← (w.setAdjusted_edited false).latched]
    generalize w.setAdjusted false = w
    cases key with
    | attention code =>
      unfold Work.applyDecoded
      dsimp only
      split
      · exact .inr (w.latch_lock code)
      · exact w.reportKey_latched code
    | data ch => exact .inl (w.dataKey_edited ch).latched
    | rowInsert => exact .inl w.rowInsertKey_latched
    | rowDelete => exact .inl w.rowDeleteKey_latched
    | delete => exact .inl w.deleteKey_edited.latched
    | eraseEof => exact .inl w.eraseEofKey_edited.latched
    | eraseInput => exact .inl w.eraseInputKey_edited.latched
    | fieldExit => exact .inl w.fieldExitKey_edited.latched
    | fieldMinus => exact .inl w.fieldMinusKey_edited.latched
    | dup => exact .inl w.dupKey_edited.latched
    | insert => exact .inl (w.setInsertMode_edited _).latched
    | reset => exact .inl (w.setInsertMode_edited false).latched
    | rollUp => exact .inl (w.rollTo_edited _).latched
    | rollDown => exact .inl (w.rollTo_edited _).latched
    | _ => exact .inl (w.exitThenMove_edited _ _ _ _ _).latched

end

/-! ### An act stored behind another (R31, R32) -/

theorem RawEvents.raise_raise (r : RawEvents) (e : Event) : (r.raise e).raise e = r.raise e := by
  cases e <;> simp [RawEvents.raise, BitVec.or_assoc]

theorem gainsMember_self (r : RawEvents) : gainsMember r r = false := by
  simp [gainsMember, gainsBit]

/-- R191: an event that is raised is not raised again. -/
theorem State.raise_raise (s : State) (e : Event) : (s.raise e).raise e = s.raise e := by
  have raw := State.raise_raw s e
  generalize s.raise e = t at raw ⊢
  unfold State.raise State.updateEvents
  rw [raw, RawEvents.raise_raise, ← raw, gainsMember_self]
  rfl

section
variable {s : State} {i : StationId} {w : Work}

theorem State.raise_storeWork (e : Event) : (s.storeWork i w).raise e = (s.raise e).storeWork i w := by
  obtain ⟨event, waiting⟩ := State.raise_slot_congr (s := s) (t := s.storeWork i w) e rfl rfl rfl rfl
  rw [State.raise_eq (s.storeWork i w), event, waiting, State.raise_eq s]
  rfl

theorem State.storeWork_storeWork (w' : Work) : (s.storeWork i w).storeWork i w' = s.storeWork i w' := by
  simp [State.storeWork, State.setStation]

/-- An act behind one that has latched nothing: what both have changed, and POOL LOW where either raised it. -/
theorem State.closeWork_closeWork (hl : w.latched = none) (w' : Work) (o : Option Context) :
    (s.closeWork i w).closeWork i w' = s.closeWork i (w'.on ⟨w.poolLow, o, id⟩) := by
  have stored : ∀ s : State, s.storeWork i (w'.on ⟨w.poolLow, o, id⟩) = s.storeWork i w' := fun _ => rfl
  have raised : (w'.on ⟨w.poolLow, o, id⟩).poolLow = (w.poolLow || w'.poolLow) := rfl
  rw [State.closeWork_unlatched hl]
  unfold State.closeWork
  rw [stored, raised, Work.on_latched]
  dsimp only
  cases w.poolLow <;> cases w'.poolLow <;>
    simp [State.raise_storeWork, State.storeWork_storeWork, State.raise_raise]

theorem State.snapshotSlot_of_general {t : State} (h : t.general = s.general) : t.snapshotSlot i = s.snapshotSlot i := by
  unfold State.snapshotSlot
  rw [h]

theorem State.versionAt_of_table {t : State} (h : t.table = s.table) (e : EntryId) : t.versionAt e = s.versionAt e := by
  unfold State.versionAt
  rw [h]

/-- The work of an act that goes on from the state an act has left. -/
theorem State.openWork_closeWork (hl : w.latched = none) (version : w.v = s.versionAt w.c.entry)
    (frozen : w.snapshot = (s.snapshotSlot i).isSome) :
    w = ((s.closeWork i w).openWork i w.c).on ⟨w.poolLow, w.st.ctx, id⟩ := by
  have station := State.closeWork_station s w i (i := i)
  rw [if_pos rfl] at station
  have general : (s.closeWork i w).general = s.general := by rw [State.closeWork_others hl]
  unfold State.openWork
  rw [State.versionAt_of_table (State.closeWork_table _ _), station, State.closeWork_freeRows,
    State.snapshotSlot_of_general general, ← frozen, ← version]
  simp [Work.on, ← hl]

end

/-! ### The type-ahead queue key by key (R37) -/

section
variable {s : State} {i : StationId} {c : Context}

theorem State.deliverKey_open (hs : (s.station i).state = .entry) (hl : (s.station i).lock = .none)
    (hc : (s.station i).ctx = some c) (k : Byte) :
    State.deliverKey i s k = s.closeWork i ((s.openWork i c).applyKey k) := by
  unfold State.deliverKey State.act
  rw [hs, hl, hc]

section
variable {k : Byte} {rest : List Byte}

theorem State.drained_cons_open (h : ((State.deliverKey i s k).station i).lock = .none) :
    s.drained i (k :: rest) = (State.deliverKey i s k).drained i rest := by
  rw [State.drained]
  dsimp only
  split
  · rfl
  all_goals
    rename_i e
    cases h.symm.trans e

theorem State.drained_cons_error {code : ErrorCode}
    (h : ((State.deliverKey i s k).station i).lock = .operatorError code) :
    s.drained i (k :: rest) = State.deliverKey i s k := by
  rw [State.drained]
  dsimp only
  split
  case h_2 => rfl
  all_goals
    rename_i e
    cases h.symm.trans e

/-- R37: a keyboard closed by a key leaves the rest queued. -/
theorem State.drained_cons_closed (h : ((State.deliverKey i s k).station i).lock = .system
    ∨ ((State.deliverKey i s k).station i).lock = .snapshot) :
    let t := State.deliverKey i s k
    s.drained i (k :: rest) = { t with stations := t.stations.set i { t.station i with typeAhead := rest } } := by
  intro t
  rw [State.drained]
  dsimp only
  split
  case h_3 => rfl
  case h_4 => rfl
  all_goals
    rename_i e
    rcases h with h | h <;> cases h.symm.trans e

end

/-- An act that may begin at a station in ENTRY under lock NONE, with nothing latched. -/
structure Work.Drains (w : Work) (s : State) (i : StationId) : Prop where
  state : w.st.state = .entry
  lock : w.st.lock = .none
  latched : w.latched = none
  version : w.v = s.versionAt w.c.entry
  frozen : w.snapshot = (s.snapshotSlot i).isSome

/-- R37: the next key of a queue, whatever is queued behind it. -/
theorem Work.Drains.deliverKey {w : Work} (h : w.Drains s i) (k : Byte) (rest : List Byte) :
    State.deliverKey i (s.closeWork i (w.setTypeAhead [])) k
      = s.closeWork i (((w.setTypeAhead rest).applyKey k).setTypeAhead []) := by
  obtain ⟨state, lock, latched, version, frozen⟩ := h
  have station := State.closeWork_station s (w.setTypeAhead []) i (i := i)
  rw [if_pos rfl] at station
  have begins := State.openWork_closeWork (s := s) (i := i) (w := w.setTypeAhead []) latched version frozen
  rw [State.deliverKey_open (c := w.c) (by rw [station]; exact state) (by rw [station]; exact lock)
      (by rw [station]; rfl),
    State.closeWork_closeWork (w := w.setTypeAhead []) latched _ w.st.ctx, ← Work.on_applyKey]
  have restated : w.setTypeAhead rest = (w.setTypeAhead []).on ⟨false, w.st.ctx, fun _ => rest⟩ := rfl
  have behind : (((w.setTypeAhead []).applyKey k).on ⟨false, w.st.ctx, fun _ => rest⟩).setTypeAhead []
      = ((w.setTypeAhead []).applyKey k).on ⟨false, w.st.ctx, fun _ => []⟩ := rfl
  have applied : ((w.setTypeAhead rest).applyKey k).setTypeAhead [] = (w.setTypeAhead []).applyKey k := by
    rw [restated, Work.on_applyKey, behind, ← Work.on_applyKey]
    rfl
  rw [applied]
  exact congrArg (fun u => s.closeWork i (Work.applyKey u k)) begins.symm

theorem Work.Drains.applyKey {w : Work} (h : w.Drains s i) {k : Byte} (hl : (w.applyKey k).st.lock = .none) :
    (w.applyKey k).Drains s i := by
  have kept := w.applyKey_keeps k
  have state : (w.applyKey k).st.state = .entry := by
    rcases w.applyKey_seat k with key | latched
    · exact key.state.trans h.state
    · have lock : (w.applyKey k).st.lock = .system := congrArg Seat.lock latched
      cases lock.symm.trans hl
  have latched : (w.applyKey k).latched = none := by
    rcases w.applyKey_latched k with e | e
    · exact e.trans h.latched
    · cases e.symm.trans hl
  exact ⟨state, hl, latched, by rw [kept.version, kept.entry]; exact h.version, kept.snapshot.trans h.frozen⟩

/-- R37: a queue drained in one act is its keys delivered from the head. -/
theorem Work.Drains.closeWork_drain (l : List Byte) {w : Work} (h : w.Drains s i) :
    s.closeWork i (w.drain l) = (s.closeWork i (w.setTypeAhead [])).drained i l := by
  induction l generalizing w with
  | nil => rfl
  | cons k rest ih =>
    have delivered := h.deliverKey k rest
    have lock : ((State.deliverKey i (s.closeWork i (w.setTypeAhead [])) k).station i).lock
        = ((w.setTypeAhead rest).applyKey k).st.lock := by
      rw [delivered, State.closeWork_station, if_pos rfl]
      rfl
    have waits : s.closeWork i ((w.setTypeAhead rest).applyKey k)
        = let t := State.deliverKey i (s.closeWork i (w.setTypeAhead [])) k
          { t with stations := t.stations.set i { t.station i with typeAhead := rest } } := by
      have queue : ((w.setTypeAhead rest).applyKey k).st.typeAhead = rest := by
        rcases (w.setTypeAhead rest).applyKey_seat k with key | latched
        · exact key.typeAhead
        · exact congrArg Seat.typeAhead latched
      rw [delivered]
      generalize (w.setTypeAhead rest).applyKey k = u at queue ⊢
      dsimp only
      rw [State.closeWork_station, if_pos rfl]
      refine Eq.trans ?_ (State.closeWork_restated s i (u.setTypeAhead []) { u.st with typeAhead := rest } u.c)
      rw [← queue]
      rfl
    unfold Work.drain
    dsimp only
    cases hl : ((w.setTypeAhead rest).applyKey k).st.lock with
    | none =>
      have drains : (w.setTypeAhead rest).Drains s i := ⟨h.state, h.lock, h.latched, h.version, h.frozen⟩
      rw [State.drained_cons_open (lock.trans hl), delivered]
      exact ih (drains.applyKey hl)
    | operatorError code =>
      rw [State.drained_cons_error (lock.trans hl)]
      exact delivered.symm
    | system =>
      rw [State.drained_cons_closed (.inl (lock.trans hl))]
      exact waits
    | snapshot =>
      rw [State.drained_cons_closed (.inr (lock.trans hl))]
      exact waits

end

end Sys2Proof.Machine

/-! PROOFS. UNLOCK (R127): each state of the station, and the type-ahead queue of a keyboard that is opened (R37). -/

namespace Sys2Proof.Machine

/-! ### The receiver and the general slots while an act is stored -/

/-- The part with another receiver and other general slots, which the end of an act neither reads nor writes. -/
def State.withTrunk (s : State) (rx : Receiver) (general : Vector GeneralSlot 24) : State :=
  { s with rx := rx, general := general }

section
variable {s : State} {i : StationId} {g : GenId} {c : Context}

theorem State.raise_withTrunk (s : State) (e : Event) (rx : Receiver) (general : Vector GeneralSlot 24) :
    (s.withTrunk rx general).raise e = (s.raise e).withTrunk rx general := by
  obtain ⟨event, waiting⟩ := State.raise_slot_congr (s := s) (t := s.withTrunk rx general) e rfl rfl rfl rfl
  rw [State.raise_eq (s.withTrunk rx general), event, waiting, State.raise_eq s]
  rfl

theorem State.closeWork_withTrunk (s : State) (i : StationId) (w : Work) (rx : Receiver)
    (general : Vector GeneralSlot 24) :
    (s.withTrunk rx general).closeWork i w = (s.closeWork i w).withTrunk rx general := by
  have stored : (s.withTrunk rx general).storeWork i w = (s.storeWork i w).withTrunk rx general := rfl
  unfold State.closeWork
  rw [stored]
  dsimp only
  cases w.poolLow <;> cases w.latched <;>
    simp only [State.raise_withTrunk, Bool.false_eq_true, if_false, if_true, State.placeLatched] <;> rfl

theorem State.closeWork_general (s : State) (i : StationId) (w : Work) : (s.closeWork i w).general = s.general := by
  have same := congrArg State.general (State.closeWork_withTrunk s i w s.rx s.general)
  exact same

/-- R185: an act and the record that answers it. -/
theorem State.closeWork_replied (s : State) (i : StationId) (g : GenId) (w : Work) (r : Inbound) :
    (s.hunting.closeWork i w).place g (stationNumber i) r = (s.closeWork i w).replied g (i.val + 1) r := by
  have hunting : s.hunting.closeWork i w = (s.closeWork i w).withTrunk .hunting s.general :=
    State.closeWork_withTrunk s i w .hunting s.general
  rw [hunting, ← State.closeWork_general s i w]
  rfl

theorem State.act_of_form (hc : (s.station i).ctx = some c) (f : Work → Work) :
    s.act i f = s.closeWork i (f (s.openWork i c)) := by
  unfold State.act
  rw [hc]

/-! ### UNLOCK in the states of a station (R127) -/

theorem State.takeUnlock_form (hc : (s.station i).ctx = some c) :
    s.takeUnlock i g = (s.act i Work.unlock).doneRecord i g 0x24 := by
  unfold State.takeUnlock
  rw [hc]
  cases (s.station i).state <;> rfl

theorem State.takeUnlock_blank (hc : (s.station i).ctx = none) (hs : (s.station i).state = .blank) :
    s.takeUnlock i g = s.refuseRecord i g 0x24 .state none none := by
  unfold State.takeUnlock
  rw [hs, hc]

theorem State.takeUnlock_formless (hc : (s.station i).ctx = none) (hs : (s.station i).state = .attention) :
    s.takeUnlock i g = (s.openBlank i).doneRecord i g 0x24 := by
  unfold State.takeUnlock
  rw [hs, hc]

/-- R127: UNLOCK at a station with a form. -/
theorem exec_unlock_form (h : Receiving s g) (hr : Ready s i) (hc : (s.station i).ctx = some c) :
    exec (.unlock i) s = .next ((s.closeWork i (s.openWork i c).unlock).replied g (i.val + 1) (.done 0x24)) := by
  rw [exec_unlock h hr, State.takeUnlock_form (s := s.hunting) hc, State.act_of_form (s := s.hunting) hc,
    ← State.closeWork_replied]
  rfl

end

/-! ### The keyboard opened at the station (R27, R37) -/

section
variable {s : State} {i : StationId} {c : Context} {w : Work}

theorem Work.unlock_opens (h : w.st.state = .held ∨ w.st.state = .attention) : w.unlock = w.openKeyboard := by
  unfold Work.unlock
  rcases h with h | h <;> rw [h]

/-- R37: a keyboard that opens on an overrun queue discards it under the operator error OVERRUN. -/
theorem Work.openKeyboard_overrun (h : KeyboardClosed w.st) (hs : w.snapshot = false) (ho : w.st.overrun = true) :
    w.openKeyboard = Work.operatorError
      { w.opened with st := { w.opened.st with typeAhead := [], overrun := false } } .overrun := by
  rw [Work.openKeyboard_eq h hs]
  exact if_pos ho

theorem State.openWork_unfrozen (hf : s.snapshotSlot i = none) : (s.openWork i c).snapshot = false := by
  change (s.snapshotSlot i).isSome = false
  rw [hf]
  rfl

variable (hc : (s.station i).ctx = some c) (h : KeyboardClosed (s.station i)) (hf : s.snapshotSlot i = none)
include hc h hf

/-- R37: the queue of a keyboard that opens is delivered from its head. -/
theorem State.openKeyboard_drained (ho : (s.station i).overrun = false) :
    s.closeWork i (s.openWork i c).openKeyboard
      = (s.setStation i { s.station i with
          state := .entry, lock := .none, typeAhead := []
          paint := (s.station i).paint.add true .message }).drained i (s.station i).typeAhead := by
  have opens := Work.openKeyboard_drains (w := s.openWork i c) h (State.openWork_unfrozen hf) ho
  have drains : (s.openWork i c).opened.Drains s i := ⟨rfl, rfl, rfl, rfl, rfl⟩
  rw [opens, drains.closeWork_drain, State.closeWork_quiet rfl rfl rfl]
  change (s.setStation i { (s.openWork i c).opened.st with typeAhead := [], ctx := some c }).drained i _ = _
  rw [← hc]
  rfl

/-- R37: an overrun queue is discarded under the operator error OVERRUN, with one ALARM. -/
theorem State.openKeyboard_overrun (ho : (s.station i).overrun = true) : ∃ p : Paint,
    s.closeWork i (s.openWork i c).openKeyboard = s.setStation i { s.station i with
      state := .entry, lock := .operatorError .overrun, typeAhead := [], overrun := false, paint := p }
      ∧ p.alarm = true := by
  have opens := Work.openKeyboard_overrun (w := s.openWork i c) h (State.openWork_unfrozen hf) ho
  let w : Work := { (s.openWork i c).opened with
    st := { (s.openWork i c).opened.st with typeAhead := [], overrun := false } }
  have edited := w.operatorError_edited .overrun
  refine ⟨(w.operatorError .overrun).st.paint, ?_, rfl⟩
  rw [opens, State.closeWork_quiet (congrArg Work.freeRows edited) (congrArg Work.poolLow edited) edited.latched]
  have station : ({ (w.operatorError .overrun).st with ctx := some (w.operatorError .overrun).c } : Station)
      = { s.station i with
          state := .entry, lock := .operatorError .overrun, typeAhead := [], overrun := false
          paint := (w.operatorError .overrun).st.paint } := by
    rw [edited.station, Work.operatorError_lock, Work.operatorError_c, show w.c = c from rfl, ← hc]
    rfl
  exact congrArg (s.setStation i) station

end

/-- Settles O39: UNLOCK by the state of the station; a keyboard that opens drains its queue key by key. -/
theorem unlockOpensKeyboard : Obligations.UnlockOpensKeyboard := by
  intro s i g h hr st
  refine ⟨fun hc hs => ?_, fun hc hs => ?_, fun hc hs => ?_, fun hc hs hl => ?_, fun hc hs => ?_⟩
  · rw [exec_unlock h hr, State.takeUnlock_blank (s := s.hunting) hc hs]
    rfl
  · obtain ⟨c, hc⟩ := Option.isSome_iff_exists.mp hc
    have unlocked : (s.openWork i c).unlock = s.openWork i c := by
      unfold Work.unlock
      rw [show (s.openWork i c).st.state = .entry from hs]
    rw [exec_unlock_form h hr hc, unlocked, State.closeWork_openWork hc]
  · obtain ⟨c, hc⟩ := Option.isSome_iff_exists.mp hc
    have unlocked : (s.openWork i c).unlock
        = { s.openWork i c with st := { s.station i with unlockAtEnd := true } } := by
      unfold Work.unlock
      rw [show (s.openWork i c).st.state = .composing from hs]
      rfl
    rw [exec_unlock_form h hr hc, unlocked, State.closeWork_quiet rfl rfl rfl]
    change Host.Outcome.next ((s.setStation i { s.station i with unlockAtEnd := true, ctx := some c }).replied _ _ _) = _
    rw [← hc]
    rfl
  · obtain ⟨c, hc⟩ := Option.isSome_iff_exists.mp hc
    have closed : KeyboardClosed (s.station i) := hs.imp_right .inl
    have opens : (s.openWork i c).unlock = (s.openWork i c).openKeyboard := Work.unlock_opens hs
    have unlocked := exec_unlock_form h hr hc
    rw [opens] at unlocked
    have drained := State.openKeyboard_drained hc closed hr.snapshotSlot
    refine ⟨fun ho hq => ?_, fun ho => ?_, ⟨_, unlocked, ?_⟩, fun ho => ?_⟩
    · rw [unlocked, drained ho, hq, State.drained_nil]
      simp only [st] at hq ⊢
      rw [← hq]
      rfl
    · obtain ⟨p, overrun, alarm⟩ := State.openKeyboard_overrun hc closed hr.snapshotSlot ho
      rw [overrun] at unlocked
      have station : ((s.setStation i { s.station i with
          state := .entry, lock := .operatorError .overrun, typeAhead := [], overrun := false, paint := p }).replied g
            (i.val + 1) (.done 0x24)).station i = { s.station i with
          state := .entry, lock := .operatorError .overrun, typeAhead := [], overrun := false, paint := p } :=
        State.station_setStation_self ..
      refine ⟨_, unlocked, ?_, ?_, ?_⟩
      · rw [station]
        rfl
      · rw [station]
      · rw [station]
        exact alarm
    · have station : ((s.closeWork i (s.openWork i c).openKeyboard).replied g (i.val + 1) (.done 0x24)).station i
          = { (s.openWork i c).openKeyboard.st with ctx := some (s.openWork i c).openKeyboard.c } :=
        (State.closeWork_station ..).trans (if_pos rfl)
      rw [station]
      intro lockNone
      rcases (s.openWork i c).openKeyboard_opened.place with ⟨-, lock⟩ | ⟨-, -, queue⟩ | ⟨-, lock⟩
      · cases lock.symm.trans lockNone
      · exact queue
      · cases lock.symm.trans lockNone
    · rw [unlocked, drained ho]
      rfl
  · refine ⟨_, exec_unlock h hr, ?_⟩
    rw [State.takeUnlock_formless (s := s.hunting) hc hs]
    exact State.openBlank_opens hc (.inr hs) 0x24

end Sys2Proof.Machine

/-! PROOFS. A FILL of several entries (R114): what its earlier entries have left, the next entry and the options behind
them, as further records would act there. -/

namespace Sys2Proof.Machine

/-! ### Another record received in the same slot -/

/-- The part behind a record, as another one received in its slot finds it. -/
def State.again (s : State) (g : GenId) : State :=
  { s with rx := .frame (some g), general := s.general.set g .reserved, waiting := s.waiting.dropLast }

section
variable {s : State} {i : StationId} {g : GenId} {c : Context}

theorem State.again_replied (s : State) (g : GenId) (n : Nat) (r : Inbound) :
    (s.replied g n r).again g = s.withTrunk (.frame (some g)) (s.general.set g .reserved) := by
  simp [State.again, State.replied, State.withTrunk]

theorem State.withTrunk_replied (s : State) (rx : Receiver) (g : GenId) (x : GeneralSlot) (n : Nat) (r : Inbound) :
    (s.withTrunk rx (s.general.set g x)).replied g n r = s.replied g n r := by
  simp [State.replied, State.withTrunk]

theorem State.replied_again (s : State) (g : GenId) (n : Nat) (r r' : Inbound) :
    { s.replied g n r with general := (s.replied g n r).general.set g (.occupied n r') } = s.replied g n r' := by
  simp [State.replied]

theorem State.replied_slot (s : State) (g : GenId) (n : Nat) (r : Inbound) :
    (s.replied g n r).general[g] = .occupied n r := by
  simp [State.replied]

/-- R143: a slot that is reserved holds no SNAPSHOT. -/
theorem State.snapshotSlot_reserved (h : s.snapshotSlot i = none) (rx : Receiver) :
    (s.withTrunk rx (s.general.set g .reserved)).snapshotSlot i = none := by
  unfold State.snapshotSlot at h ⊢
  rw [List.find?_eq_none] at h ⊢
  intro k hk
  change ¬((s.general.set g .reserved)[k] == _) = true
  rw [getElem_set_fin]
  split
  · simp
  · exact h k hk

/-- R110, R114: the answer of a FILL whose entries are all applied. -/
theorem exec_fill_applied (h : Receiving s g) (hr : Ready s i) (hc : (s.station i).ctx = some c) {l : List FillEntry}
    {w : Work} (run : (s.openWork i c).fillEntries 1 l = (w, none)) (u m : Bool) :
    exec (.recordJoinsQueue i (.fill l u m)) s
      = .next ((s.closeWork i (w.fillOptions u m)).replied g (i.val + 1) (.done 0x21)) := by
  rw [exec_fill h hr, State.takeFill_done (s := s.hunting) hc (Work.fill_done (w := s.openWork i c) run u m),
    ← State.closeWork_replied]

/-- R112, R114: the answer of a FILL that an entry has stopped. -/
theorem exec_fill_stopped (h : Receiving s g) (hr : Ready s i) (hc : (s.station i).ctx = some c) {l : List FillEntry}
    {w : Work} {r : Reason} {k : Nat} (run : (s.openWork i c).fillEntries 1 l = (w, some (r, k))) (u m : Bool) :
    exec (.recordJoinsQueue i (.fill l u m)) s
      = .next ((s.closeWork i w).replied g (i.val + 1) (stationException i 0x21 r none (some k))) := by
  rw [exec_fill h hr, State.takeFill_stopped (s := s.hunting) hc (Work.fill_stopped (w := s.openWork i c) run u m),
    ← State.closeWork_replied]

/-! ### What the entries of a FILL leave to the next record -/

/-- What entries, and CLEAR MODIFIED behind them, leave alone of an act. -/
structure Work.FilledAt (w : Work) (s : State) (i : StationId) (c : Context) : Prop where
  latched : w.latched = none
  version : w.v = s.versionAt c.entry
  entry : w.c.entry = c.entry
  state : w.st.state = (s.station i).state
  records : w.st.records = (s.station i).records
  frozen : w.snapshot = (s.snapshotSlot i).isSome

theorem Work.FilledAt.of_entries {l : List FillEntry} {w : Work}
    (run : (s.openWork i c).fillEntries 1 l = (w, none)) : w.FilledAt s i c := by
  have kept := Work.fillEntries_keeps l (s.openWork i c) 1
  have latched := Work.fillEntries_latched l (s.openWork i c) 1
  have state := Work.fillEntries_state l (s.openWork i c) 1
  rw [run] at kept latched state
  exact ⟨latched, kept.version, kept.entry, state, kept.records, kept.snapshot⟩

theorem Work.FilledAt.cleared {w : Work} (h : w.FilledAt s i c) (m : Bool) : (w.fillOptions false m).FilledAt s i c := by
  obtain ⟨latched, version, entry, state, records, frozen⟩ := h
  cases m <;> exact ⟨latched, version, entry, state, records, frozen⟩

/-- The backdrop of what follows an act. -/
def Work.backdrop (w : Work) : Backdrop := ⟨w.poolLow, w.st.ctx, id⟩

/-- The part that the next record finds behind an act. -/
def State.behind (s : State) (i : StationId) (g : GenId) (w : Work) : State :=
  (s.closeWork i w).withTrunk (.frame (some g)) ((s.closeWork i w).general.set g .reserved)

section
variable {v : TemplateVersion} {w : Work} (h : FormTaken s i g v c) (hw : w.FilledAt s i c)
include h hw

/-- The next record finds the form as the entries have left it, and is taken at once. -/
theorem FormTaken.behind : FormTaken (s.behind i g w) i g v w.c := by
  obtain ⟨⟨reset, -⟩, ⟨attached, unreleased, empty, thawed⟩, -, version⟩ := h
  have station : (s.behind i g w).station i = { w.st with ctx := some w.c } :=
    (State.closeWork_station ..).trans (if_pos rfl)
  have others := State.closeWork_others (s := s) (i := i) hw.latched
  have resets : (s.closeWork i w).resetInput = s.resetInput := by rw [others]
  have attention : (s.closeWork i w).attention = s.attention := by rw [others]
  simp only [State.frozen, Bool.or_eq_false_iff, Option.isSome_eq_false_iff, Option.isNone_iff_eq_none] at thawed
  obtain ⟨unlatched, slot⟩ := thawed
  have slot' : (s.closeWork i w).snapshotSlot i = none :=
    (State.snapshotSlot_of_general (State.closeWork_general s i w)).trans slot
  refine ⟨⟨resets.trans reset, rfl⟩, ⟨?_, ?_, ?_, ?_⟩, ?_, ?_⟩
  · rw [station]
    exact hw.state ▸ attached
  · rw [station]
    exact hw.state ▸ unreleased
  · rw [station]
    exact hw.records.trans empty
  · have reserved : (s.behind i g w).snapshotSlot i = none := State.snapshotSlot_reserved slot' _
    have unlatched' : (s.behind i g w).attention[i] = none := by
      change (s.closeWork i w).attention[i] = none
      rw [attention]
      exact unlatched
    rw [State.frozen, reserved, unlatched']
    rfl
  · rw [station]
  · rw [hw.entry, ← version]
    exact State.versionAt_of_table (State.closeWork_table _ _) _

/-- The act of the next record is the act of the FILL on another backdrop. -/
theorem FormTaken.openWork_behind : w = ((s.behind i g w).openWork i w.c).on w.backdrop := by
  have begins := State.openWork_closeWork (s := s) (i := i) hw.latched (by rw [hw.entry]; exact hw.version) hw.frozen
  have slot : (s.behind i g w).snapshotSlot i = none := by
    obtain ⟨-, ready, -, -⟩ := h.behind hw
    exact ready.snapshotSlot
  have slot' : (s.closeWork i w).snapshotSlot i = none :=
    (State.snapshotSlot_of_general (State.closeWork_general s i w)).trans (by
      obtain ⟨-, ready, -, -⟩ := h
      exact ready.snapshotSlot)
  have same : (s.behind i g w).openWork i w.c = (s.closeWork i w).openWork i w.c := by
    unfold State.openWork
    rw [slot, slot']
    rfl
  rw [same]
  exact begins

omit h in
/-- The act of the next record ends as the act of the FILL would have with it. -/
theorem Work.FilledAt.closeWork_behind (w' : Work) (n : Nat) (r : Inbound) :
    ((s.behind i g w).closeWork i w').replied g n r = (s.closeWork i (w'.on w.backdrop)).replied g n r := by
  have general : (s.closeWork i w).general = ((s.closeWork i w).closeWork i w').general :=
    (State.closeWork_general _ i w').symm
  have ends := State.closeWork_closeWork (s := s) (i := i) hw.latched w' w.st.ctx
  unfold State.behind
  rw [State.closeWork_withTrunk, general, State.withTrunk_replied, ends]
  rfl

/-- R114: the next entry, applied as a FILL of that entry alone would apply it. -/
theorem FormTaken.next_entry_ok {x : FillEntry} {w' : Work}
    (hx : ((s.behind i g w).openWork i w.c).fillEntry x = .ok w') :
    w.fillEntry x = .ok (w'.on w.backdrop)
      ∧ exec (.recordJoinsQueue i (.fill [x] false false)) (s.behind i g w)
        = .next ((s.closeWork i (w'.on w.backdrop)).replied g (i.val + 1) (.done 0x21)) := by
  have taken := (h.behind hw).exec_ok hx
  rw [State.closeWork_replied, hw.closeWork_behind] at taken
  refine ⟨?_, taken⟩
  conv_lhs => rw [h.openWork_behind hw, Work.on_fillEntry, hx]
  rfl

/-- R114: the next entry, refused as a FILL of that entry alone would refuse it. -/
theorem FormTaken.next_entry_error {x : FillEntry} {r : Reason}
    (hx : ((s.behind i g w).openWork i w.c).fillEntry x = .error r) :
    w.fillEntry x = .error r
      ∧ exec (.recordJoinsQueue i (.fill [x] false false)) (s.behind i g w)
        = .next ((s.closeWork i w).replied g (i.val + 1) (stationException i 0x21 r none (some 1))) := by
  have taken := (h.behind hw).exec_error hx
  rw [State.behind, State.withTrunk_replied, ← State.behind] at taken
  refine ⟨?_, taken⟩
  conv_lhs => rw [h.openWork_behind hw, Work.on_fillEntry, hx]
  rfl

/-- R124, R127: UNLOCK behind a FILL acts as the option does. -/
theorem FormTaken.unlock_behind : exec (.unlock i) (s.behind i g w)
    = .next ((s.closeWork i w.unlock).replied g (i.val + 1) (.done 0x24)) := by
  obtain ⟨receiving, ready, form, -⟩ := h.behind hw
  rw [exec_unlock_form receiving ready form, hw.closeWork_behind, ← Work.on_unlock _ (k := w.backdrop) rfl,
    ← h.openWork_behind hw]

end

end

/-- Settles O37: an entry, and the UNLOCK option, act on the form that the earlier entries have left as a further record
would, on another backdrop. -/
theorem fillAppliesEntriesInOrder : Obligations.FillAppliesEntriesInOrder := by
  intro s i g v c h fill again
  obtain ⟨hg, hr, hc, -⟩ := id h
  refine ⟨?_, fun earlier u hu done => ?_⟩
  · rw [exec_fill_applied hg hr hc (l := []) rfl false false, Work.fillOptions_none, State.closeWork_openWork hc]
  obtain ⟨w, run, -⟩ := exec_fill_done hg hr hc hu done
  have filled : w.FilledAt s i c := .of_entries run
  rw [exec_fill_applied hg hr hc run, Work.fillOptions_none] at hu
  obtain rfl := Host.Outcome.next.inj hu
  have behind : ∀ (w : Work) r, again ((s.closeWork i w).replied g (i.val + 1) r) = s.behind i g w := fun w r =>
    State.again_replied _ g _ r
  refine ⟨fun clear u' t hu' ht => ?_, fun x t ht => ?_⟩
  · rw [exec_fill_applied hg hr hc run] at hu'
    obtain rfl := Host.Outcome.next.inj hu'
    rw [behind, h.unlock_behind (filled.cleared clear)] at ht
    obtain rfl := Host.Outcome.next.inj ht
    rw [State.replied_again]
    exact exec_fill_applied hg hr hc run true clear
  rw [behind] at ht
  cases hx : ((s.behind i g w).openWork i w.c).fillEntry x with
  | ok w' =>
    obtain ⟨applied, taken⟩ := h.next_entry_ok filled hx
    obtain rfl := Host.Outcome.next.inj (taken.symm.trans ht)
    refine ⟨fun _ => ?_, fun reason later unlock clear stopped => ?_⟩
    · have both : (s.openWork i c).fillEntries 1 (earlier ++ [x]) = (w'.on w.backdrop, none) := by
        rw [Work.fillEntries_append run, Work.fillEntries, applied]
        rfl
      exact exec_fill_applied hg hr hc both false false
    · rw [State.replied_slot] at stopped
      simp [stationException] at stopped
  | error r =>
    obtain ⟨refused, taken⟩ := h.next_entry_error filled hx
    obtain rfl := Host.Outcome.next.inj (taken.symm.trans ht)
    refine ⟨fun applied => ?_, fun reason later unlock clear stopped => ?_⟩
    · rw [State.replied_slot] at applied
      simp [stationException] at applied
    · rw [State.replied_slot] at stopped
      obtain rfl : r = reason := by simpa [stationException] using stopped
      have all : (s.openWork i c).fillEntries 1 (earlier ++ x :: later) = (w, some (r, earlier.length + 1)) := by
        rw [Work.fillEntries_append run, Work.fillEntries, refused, Nat.add_comm]
      exact (exec_fill_stopped hg hr hc all unlock clear).trans (congrArg _ (State.replied_again ..).symm)

end Sys2Proof.Machine

/-! PROOFS. READ and the snapshot freeze (R129, R143), and the records that wait behind the freeze of an
ATTENTION (R35). -/

namespace Sys2Proof.Machine

section
variable {s : State} {i : StationId} {g : GenId} {c : Context}

/-! ### READ (R129) -/

theorem State.takeRead_formless (hc : (s.station i).ctx = none) :
    s.takeRead i g = s.refuseRecord i g 0x26 .state none none := by
  unfold State.takeRead
  rw [hc]

theorem State.takeRead_closed (hc : (s.station i).ctx = some c)
    (h : ¬((s.station i).state = .entry ∧ (s.station i).lock = .none)) :
    s.takeRead i g = s.place g (stationNumber i) .snapshot := by
  unfold State.takeRead
  rw [hc]
  dsimp only
  split
  · rename_i hs hl
    exact absurd ⟨hs, hl⟩ h
  · rfl

theorem State.takeRead_open (hc : (s.station i).ctx = some c) (hs : (s.station i).state = .entry)
    (hl : (s.station i).lock = .none) :
    s.takeRead i g = (s.place g (stationNumber i) .snapshot).setLock i .entry .snapshot := by
  unfold State.takeRead
  rw [hc]
  dsimp only
  rw [show ((s.place g (stationNumber i) .snapshot).station i).state = .entry from hs,
    show ((s.place g (stationNumber i) .snapshot).station i).lock = .none from hl]

/-- R129, R159: the lock SNAPSHOT shows in ENTRY. -/
theorem Station.withIndicator_snapshot {st : Station} (hs : st.state = .entry) (hl : st.lock = .none)
    (hc : st.ctx.isSome = true) : st.withIndicator (fun st => { st with state := .entry, lock := .snapshot })
      = { st with lock := .snapshot, paint := st.paint.add true .message } := by
  have read : KeyboardClosed { st with state := .entry, lock := .snapshot } := .inr (.inr ⟨rfl, rfl⟩)
  have shows := (read.indicator_ne st.ctx st.ctx).symm
  rw [Station.withIndicator_of_ne (by rw [hs, hl]; exact shows)]
  dsimp only
  rw [hc, ← hs]

/-- R143: a SNAPSHOT placed freezes its station. -/
theorem State.replied_frozen (s : State) (g : GenId) (i : StationId) :
    (s.replied g (i.val + 1) .snapshot).frozen i = true :=
  State.frozen_iff.mpr (.inr ⟨g, State.replied_slot s g (i.val + 1) .snapshot⟩)

/-! ### The last octet of a SNAPSHOT (R27, R143) -/

/-- The part as a SNAPSHOT has gone out of slot `g`. -/
def State.sent (s : State) (g : GenId) : State := { s with tx := .idle, general := s.general.set g .free }

theorem State.takeWaiting_none (h : (s.station i).records = []) : s.takeWaiting i = s := by
  unfold State.takeWaiting
  rw [h]
  rfl

theorem State.sent_snapshotSlot (h : ∀ k : GenId, k ≠ g → s.general[k] ≠ .occupied (i.val + 1) .snapshot) :
    (s.sent g).snapshotSlot i = none := by
  unfold State.snapshotSlot
  rw [List.find?_eq_none]
  intro k _
  change ¬((s.general.set g .free)[k] == _) = true
  rw [getElem_set_fin]
  split
  · simp
  · rename_i hk
    simpa [stationNumber] using h k hk

/-- R27, R143: a snapshot freeze that ends with no record waiting opens the keyboard of its station. -/
theorem exec_snapshotSent {octets : List Byte} (tx : s.tx = .sending (.general g) octets)
    (slot : s.general[g] = .occupied (i.val + 1) .snapshot) (hl : (s.station i).lock = .snapshot)
    (hc : (s.station i).ctx = some c) (hq : (s.station i).records = []) : exec .lastOctetTransmitted s
      = .next ((s.sent g).closeWork i ((s.sent g).openWork i c).openKeyboard) := by
  have freeze : snapshotOf s.general[g] = some i := by
    rw [slot]
    exact stationOf_number i
  have ended : s.endTransmission = (s.sent g).endSnapshotFreeze i := by
    unfold State.endTransmission
    rw [tx]
    dsimp only
    unfold State.endGeneral
    dsimp only
    rw [freeze]
    rfl
  have opened : (s.sent g).endSnapshotFreeze i
      = ((s.sent g).closeWork i ((s.sent g).openWork i c).openKeyboard).takeWaiting i := by
    unfold State.endSnapshotFreeze
    rw [show ((s.sent g).station i).lock = .snapshot from hl, State.act_of_form (s := s.sent g) hc]
    rfl
  have empty : (((s.sent g).closeWork i ((s.sent g).openWork i c).openKeyboard).station i).records = [] := by
    rw [State.closeWork_station, if_pos rfl]
    exact ((s.sent g).openWork i c).openKeyboard_keeps.records.trans hq
  rw [State.takeWaiting_none empty] at opened
  exact congrArg Host.Outcome.next (ended.trans opened)

/-! ### Records taken leave the record queue (R35) -/

theorem State.modStation_records (f : Station → Station) (h : ∀ st, (f st).records = st.records) :
    ((s.modStation i f).station i).records = (s.station i).records := by
  rw [State.modStation_eq, State.station_setStation_self]
  exact h _

theorem State.setLock_records (x : StationState) (l : Lock) :
    ((s.setLock i x l).station i).records = (s.station i).records := by
  rw [State.setLock_station]

theorem State.openBlank_records : ((s.openBlank i).station i).records = (s.station i).records := by
  obtain ⟨x, l, q, o, p, station, -⟩ := s.openBlank_station i
  rw [station]

theorem State.closeWork_records {w : Work} (h : Keeps (s.openWork i c) w) :
    ((s.closeWork i w).station i).records = (s.station i).records := by
  rw [State.closeWork_station, if_pos rfl]
  exact h.records

theorem State.takeCompose_records (r : ComposeRec) :
    ((s.takeCompose i g r).station i).records = (s.station i).records := by
  cases he : s.liveEntry r.id with
  | none => rw [State.takeCompose_of_none he g]; rfl
  | some e =>
    rw [State.takeCompose_of_live he g]
    dsimp only
    split
    · rw [State.composeFails_station, State.vacated_station]; rfl
    split
    · rw [State.composeFails_station, State.vacated_station]; rfl
    split
    · rw [State.composeFails_station, State.takeRows_station, State.vacated_station]; rfl
    · rw [State.composeSucceeds_station, State.takeRows_station, State.vacated_station]; rfl

theorem State.takeFill_records (l : List FillEntry) (u m : Bool) :
    ((s.takeFill i g l u m).station i).records = (s.station i).records := by
  unfold State.takeFill
  split
  · rfl
  · rename_i c _
    have closed := State.closeWork_records (s := s) ((s.openWork i c).fill_keeps l u m)
    split
    all_goals
      rename_i e
      rw [e] at closed
      exact closed

theorem State.takeNote_records (alarm : Bool) (t : Text) :
    ((s.takeNote i g alarm t).station i).records = (s.station i).records := by
  unfold State.takeNote
  split
  · rfl
  · extract_lets noted painted alarmed
    have hn : (noted.station i).records = (s.station i).records := State.modStation_records _ fun _ => rfl
    have hp : (painted.station i).records = (noted.station i).records := State.modStation_records _ fun _ => rfl
    have ha : (alarmed.station i).records = (painted.station i).records := by
      simp only [alarmed]
      split
      · exact State.modStation_records _ fun _ => rfl
      · rfl
    exact ha.trans (hp.trans hn)

theorem State.takeLock_records : ((s.takeLock i g).station i).records = (s.station i).records := by
  unfold State.takeLock
  split
  · exact State.setLock_records _ _
  · rw [State.doneRecord_station]
    exact State.modStation_records _ fun _ => rfl
  all_goals rfl

theorem State.takeUnlock_records : ((s.takeUnlock i g).station i).records = (s.station i).records := by
  unfold State.takeUnlock
  split
  · exact State.openBlank_records
  · rename_i c hc
    rw [State.act_of_form hc]
    exact State.closeWork_records (s.openWork i c).unlock_keeps
  · rfl

theorem State.takeResetModified_records : ((s.takeResetModified i g).station i).records = (s.station i).records := by
  unfold State.takeResetModified
  split
  · rw [State.doneRecord_station]
    exact State.modStation_records _ fun _ => rfl
  · rfl

theorem State.takeRead_records : ((s.takeRead i g).station i).records = (s.station i).records := by
  unfold State.takeRead
  split
  · dsimp only
    split
    · exact State.setLock_records _ _
    · rfl
  · rfl

theorem State.takeRelease_records : ((s.takeRelease i g).station i).records = (s.station i).records := by
  cases hc : (s.station i).ctx with
  | none =>
    unfold State.takeRelease
    rw [hc]
    exact State.openBlank_records
  | some c =>
    rw [State.takeRelease_some (by simp [hc])]
    split
    · simp [State.released, State.station, Station.released]
    · simp [State.beginReleasing, State.station, Station.releasing]

/-- R111: a record taken leaves the others in the queue. -/
theorem State.takeRecord_records (q : Queued) : ((s.takeRecord i q).station i).records = (s.station i).records := by
  unfold State.takeRecord
  split
  · exact State.takeCompose_records _
  · exact State.takeFill_records _ _ _
  · exact State.takeNote_records _ _
  · exact State.takeLock_records
  · exact State.takeUnlock_records
  · exact State.takeResetModified_records
  · exact State.takeRead_records
  · exact State.takeRelease_records

/-- The part as the head record leaves the queue. -/
theorem State.dequeued_records (q : Queued) (rest : List Queued) :
    (((s.modStation i (fun st => { st with records := rest })).takeRecord i q).station i).records = rest := by
  rw [State.takeRecord_records, State.modStation_eq, State.station_setStation_self]

theorem State.takeUpTo_records (fuel : Nat) :
    ((State.takeUpTo i fuel s).station i).records.length ≤ (s.station i).records.length := by
  induction fuel generalizing s with
  | zero => exact Nat.le_refl _
  | succ n ih =>
    unfold State.takeUpTo
    split
    · exact Nat.le_refl _
    · rename_i q rest hq
      split
      · exact Nat.le_refl _
      · refine ih.trans ?_
        rw [State.dequeued_records, hq]
        exact Nat.le_succ _

/-- R35: a station that takes records takes at least the one at the head. -/
theorem State.takeWaiting_records {q : Queued} {rest : List Queued} (hq : (s.station i).records = q :: rest)
    (hs : (s.station i).state ≠ .releasing) (hf : s.frozen i = false) :
    ((s.takeWaiting i).station i).records.length < (s.station i).records.length := by
  have taken : s.takeWaiting i
      = State.takeUpTo i rest.length ((s.modStation i (fun st => { st with records := rest })).takeRecord i q) := by
    unfold State.takeWaiting
    rw [hq, List.length_cons, State.takeUpTo, hq]
    dsimp only
    rw [hf, if_neg (by simpa using hs)]
  have fewer := State.takeUpTo_records (i := i)
    (s := (s.modStation i (fun st => { st with records := rest })).takeRecord i q) rest.length
  rw [State.dequeued_records] at fewer
  rw [taken, hq, List.length_cons]
  exact Nat.lt_succ_of_le fewer

end

/-- Settles O12: READ by the state of its station; the end of the freeze as the keyboard opened; and the queue of records
behind an ATTENTION. -/
theorem snapshotFreezesUntilSent : Obligations.SnapshotFreezesUntilSent := by
  refine ⟨fun s i g h hr => ?_, fun s g i octets tx slot others hs hl form hq => ?_,
    fun s i octets q rest tx hq hs hf => ?_⟩
  · intro st
    have refused : st.ctx = none →
        exec (.read i) s = .next (s.replied g (i.val + 1) (stationException i 0x26 .state none none)) := fun hc => by
      rw [exec_read h hr, State.takeRead_formless (s := s.hunting) hc]
      rfl
    have closed : st.ctx.isSome = true → ¬(st.state = .entry ∧ st.lock = .none) →
        exec (.read i) s = .next (s.replied g (i.val + 1) .snapshot) := fun hc notOpen => by
      obtain ⟨c, hc⟩ := Option.isSome_iff_exists.mp hc
      rw [exec_read h hr, State.takeRead_closed (s := s.hunting) hc notOpen]
      rfl
    have opened : st.ctx.isSome = true → st.state = .entry → st.lock = .none → exec (.read i) s
        = .next { s.replied g (i.val + 1) .snapshot with
          stations := s.stations.set i { st with lock := .snapshot, paint := st.paint.add true .message } } :=
      fun form hs hl => by
        obtain ⟨c, hc⟩ := Option.isSome_iff_exists.mp form
        rw [exec_read h hr, State.takeRead_open (s := s.hunting) hc hs hl, State.setLock_eq]
        exact congrArg (fun st => Host.Outcome.next ((s.replied g (i.val + 1) .snapshot).setStation i st))
          (Station.withIndicator_snapshot (st := s.station i) hs hl form)
    refine ⟨refused, closed, opened, fun form => ?_⟩
    by_cases free : st.state = .entry ∧ st.lock = .none
    · exact ⟨_, opened form free.1 free.2, State.replied_frozen s g i, by simp [State.station, st]⟩
    · exact ⟨_, closed form free, State.replied_frozen s g i, rfl⟩
  · intro st sent opened
    obtain ⟨c, hc⟩ := Option.isSome_iff_exists.mp form
    have thawed := exec_snapshotSent tx slot hl hc hq
    have closed : KeyboardClosed ((s.sent g).station i) := .inr (.inr ⟨hs, hl⟩)
    have unfrozen := State.sent_snapshotSlot others
    refine ⟨fun ho => ?_, fun ho => ?_⟩
    · rw [thawed, State.openKeyboard_drained (s := s.sent g) hc closed unfrozen ho, ← hs]
      rfl
    · obtain ⟨p, overrun, alarm⟩ := State.openKeyboard_overrun (s := s.sent g) hc closed unfrozen ho
      rw [overrun, ← hs] at thawed
      have station : ∀ st, ((s.sent g).setStation i st).station i = st := fun st => State.station_setStation_self ..
      refine ⟨_, thawed, ?_, ?_, ?_⟩
      · rw [station]
        rfl
      · rw [station]
        rfl
      · rw [station]
        exact alarm
  · let u : State := { s with tx := .idle, attention := s.attention.set i none }
    have ended : exec .lastOctetTransmitted s = .next (u.takeWaiting i) := by
      refine congrArg Host.Outcome.next ?_
      unfold State.endTransmission
      rw [tx]
      rfl
    have empty : u.attention[i] = none := by
      change (s.attention.set i none)[i] = none
      rw [getElem_set_fin, if_pos rfl]
    have unfrozen : u.frozen i = false := by
      rw [State.frozen, empty, show u.snapshotSlot i = none from hf]
      rfl
    have only : OnlyStation i u (u.takeWaiting i) := State.takeWaiting_only u
    exact ⟨_, ended, only.tx, State.takeWaiting_records (s := u) hq hs unfrozen⟩

end Sys2Proof.Machine
